-- ==== Sys2Proof/Word.lean ====
section
/-!
DEFINITION. The word types of WPE-CORE (00_scope.md R9 to R12). Bit 0 is the least significant bit (R10); nothing is
signed (R11).
-/

namespace Sys2Proof

/-- A byte of a buffer (00_scope.md R12). -/
abbrev Byte := BitVec 8

/-- A 16-bit value: an operation word (30_encoding.md R91) or a Hamming word (00_scope.md R7, `WORD_BITS`). -/
abbrev Word16 := BitVec 16

/-- The 11 data bits of one Hamming word (00_scope.md R7, `DATA_BITS`). -/
abbrev Data11 := BitVec 11

/-- A scalar operand, a response value, a register or a counter (00_scope.md R9). -/
abbrev Word32 := BitVec 32

/-- A buffer: a finite sequence of bytes, index 0 first (00_scope.md R12). -/
abbrev Buffer := List Byte

/-- `zeros(n)`: `n` zero bytes (00_scope.md R12). -/
def zeros (n : Nat) : Buffer := List.replicate n 0#8

/-- `slice(b, a, e)`: bytes `a` up to but not including `e`; empty when `e <= a` (00_scope.md R12). -/
def slice (b : Buffer) (a e : Nat) : Buffer := (b.take e).drop a

end Sys2Proof
end

