-- ==== Sys2Proof/Config.lean ====
section
/-!
DEFINITION. What 00_scope.md R8 leaves to the implementation, and the constants R7 fixes.
-/

namespace Sys2Proof

/-- The parameter `DIGEST` (00_scope.md R8, 92_eei_decisions.md D9): a deterministic total function from a byte
sequence to exactly 16 bytes. The spec names no algorithm, so it has no body here: nothing can be proved of its values
but that it is a function and that its results are 16 bytes long (notes/assumptions/3.md). -/
opaque Config.digest : Buffer → Vector Byte 16

/-- The parameter `MAX_BUF_LEN` of the block as it was built (00_scope.md R8, D11): a number of bytes, or `none` for
unbounded. No body: its value is open (notes/assumptions/5.md). -/
opaque Config.maxBufLen : Option Nat

/-- The extent of the parameter `Addr` (00_scope.md R8, 92_eei_decisions.md D10): which name tokens other than 0 stand for
an address of the block as it was built. No body: how many addresses there are is open (notes/assumptions/4.md). -/
opaque Config.isAddr : Nat → Bool

/-- `DIGEST_LEN` (00_scope.md R7). -/
def digestLen : Nat := 16

/-- `HEADER_LEN`: digest 16, type 1, paddingSize 1 (00_scope.md R7). -/
def headerLen : Nat := 18

/-- `MIN_RAW_LEN`: a received buffer shorter than this fails fast (00_scope.md R7, 90_conflicts.md C4). -/
def minRawLen : Nat := 18

/-- `CHUNK_LEN`: bytes of data in one coded block (00_scope.md R7). -/
def chunkLen : Nat := 11

/-- `BLOCK_LEN`: bytes of one coded block and of one interleaver super-block (00_scope.md R7). -/
def blockLen : Nat := 16

/-- `TIMEOUT_DEFAULT`: time units (00_scope.md R7). -/
def timeoutDefault : Word32 := 1000#32

end Sys2Proof
end

