-- ==== Sys2Proof/Machine/Bits.lean ====
section
/-!
DEFINITION. Bit and byte order of buffers (20_memory.md R71 to R74).
-/

namespace Sys2Proof.Machine

open Sys2Proof

/-- The 8 bits of a byte, least significant first (20_memory.md R71). -/
def bitsOfByte (x : Byte) : List Bool := (List.range 8).map x.getLsbD

/-- `BitsOf(b)`: the bits of a buffer, least significant bit of each byte first, in buffer order (20_memory.md R71). -/
def bitsOf (b : Buffer) : List Bool := b.flatMap bitsOfByte

/-- The number a bit sequence stands for, least significant bit first. -/
def natOfBits : List Bool → Nat
  | [] => 0
  | b :: bs => b.toNat + 2 * natOfBits bs

/-- The byte whose bit `i` is bit `i` of the sequence; bit positions with no bit of the sequence are 0
(20_memory.md R72). -/
def byteOfBits (s : List Bool) : Byte := BitVec.ofNat 8 (natOfBits s)

/-- `BitsToBuffer(s)`: bit `i` goes to byte `i div 8`, position `i mod 8`, in `ceil(len(s)/8)` bytes
(20_memory.md R72). -/
def bitsToBuffer (s : List Bool) : Buffer :=
  (List.range ((s.length + 7) / 8)).map fun k => byteOfBits ((s.drop (8 * k)).take 8)

/-- `WriteWordLE(w)`: the bytes `[w[7:0], w[15:8]]` (20_memory.md R73). -/
def writeWordLE (w : Word16) : Buffer := [w.extractLsb' 0 8, w.extractLsb' 8 8]

/-- `ReadWordLE(b, off)`: `b[off] OR (b[off+1] << 8)` (20_memory.md R74). Every use is at an `off` with both bytes in
the buffer. -/
def readWordLE (b : Buffer) (off : Nat) : Word16 := b.getD (off + 1) 0#8 ++ b.getD off 0#8

end Sys2Proof.Machine
end

