-- ==== Sys2Proof/Syntax.lean ====
section
/-!
DEFINITION. The operations of WPE-CORE (30_encoding.md R93), the operation record that carries one to the block (R90),
the input ports (R98) and the input stream.
-/

namespace Sys2Proof

/-- WPE-CORE operation set 1: one constructor for each row of spec/opcode_table.json (30_encoding.md R93). A
constructor holds what the operation WORD holds; the operands `data`, `addr` and `val` travel in the operation record
(R90). -/
inductive Instr where
  /-- `0x01 PARITY`: parity bits of `val[15:0]` (41_hamming.md R118). -/
  | parity
  /-- `0x02 ENCW`: codeword of `val[10:0]` (41_hamming.md R119). -/
  | encw
  /-- `0x03 CHK`: check and correct `val[15:0]` (41_hamming.md R120). -/
  | chk
  /-- `0x04 DECW`: data bits of `val[15:0]` (41_hamming.md R121). -/
  | decw
  /-- `0x05 ENCODE`: encode `data` (41_hamming.md R122). -/
  | encode
  /-- `0x06 DECODE`: decode `data` (41_hamming.md R123). -/
  | decode
  /-- `0x07 INTERLEAVE`: interleave `data` (42_interleaver.md R154). -/
  | interleave
  /-- `0x08 DEINTERLEAVE`: deinterleave `data` (42_interleaver.md R155). -/
  | deinterleave
  /-- `0x09 BUILD`: build a packet of type `imm8`, every value of which decodes (43_framer.md R178). -/
  | build (ptype : Byte)
  /-- `0x0A PARSE`: parse `data` (43_framer.md R179). -/
  | parse
  /-- `0x10 SEND`: send `data` to `addr` (44_socket.md R202). -/
  | send
  /-- `0x11 CLOSE` (44_socket.md R203). -/
  | close
  /-- `0x12 BIND`: bind to `addr` (44_socket.md R204). -/
  | bind
  /-- `0x18 RDREG`: read register `imm8[3:0]` (45_registers.md R250). -/
  | rdreg (reg : Nat)
  /-- `0x19 WRREG`: write `val` to register `imm8[3:0]` (45_registers.md R251). -/
  | wrreg (reg : Nat)
  /-- `0x20 RX`: datagram `data` received from `addr` (44_socket.md R205). -/
  | rx
  /-- `0x21 TICK`: one time unit of the retry timer (44_socket.md R208). -/
  | tick
  /-- `0x22 TXERR`: transport failure `val` (44_socket.md R209). -/
  | txerr
  /-- `0x23 LISTENING`: the transport is ready (44_socket.md R210). -/
  | listening
deriving DecidableEq, Repr

/-- The parameter `Addr` (00_scope.md R8, 92_eei_decisions.md D10): a type of which only decidable equality is known. Its
values are named by tokens, and `Config.isAddr` leaves open which tokens beside 0 name one, so it may be any countable
type that has a value (notes/assumptions/4.md). The block carries an address unchanged and inspects none. -/
structure Addr where
  /-- the name of the address -/
  token : Nat
  /-- the name is one of the block's -/
  valid : token = 0 ∨ Config.isAddr token = true
deriving DecidableEq, Repr

/-- The address an operation record holds where its operation uses none (30_encoding.md R90;
93_implementation_defined.md I27). -/
def Addr.unused : Addr := ⟨0, .inl rfl⟩

/-- An operation as it is presented to the block (30_encoding.md R90). -/
structure Op where
  /-- the operation word (R91) -/
  w : Word16
  /-- byte operand -/
  data : Buffer := []
  /-- address operand -/
  addr : Addr := .unused
  /-- scalar operand -/
  val : Word32 := 0#32
deriving DecidableEq, Repr

/-- The three input ports (30_encoding.md R98). -/
inductive Port where
  | host | transport | timebase
deriving DecidableEq, Repr

/-- The port the integrator must drive each operation from (30_encoding.md R93, R98). The block does not check it. -/
def Instr.port : Instr → Port
  | .parity | .encw | .chk | .decw | .encode | .decode | .interleave | .deinterleave => .host
  | .build _ | .parse | .send | .close | .bind | .rdreg _ | .wrreg _ => .host
  | .rx | .txerr | .listening => .transport
  | .tick => .timebase

/-- One item of the merged input stream: an operation with the port it arrived on (30_encoding.md R98, 60_exceptions.md
R279), or the reset event, which is taken between operations (70_reset_and_hazards.md R310). -/
inductive Input where
  | op (port : Port) (op : Op)
  | reset
deriving DecidableEq, Repr

end Sys2Proof
end

