-- ==== Sys2Proof/Machine/State.lean ====
section
/-!
DEFINITION. The state of one WPE-CORE instance (10_state.md R30), the response and output events of an operation
(30_encoding.md R96, R97), the reasons a step can stop, and the machine after reset (10_state.md R58).
-/

namespace Sys2Proof.Machine

open Sys2Proof

/-- The status codes 0 to 10 (60_exceptions.md R270). Codes 11 to 15 are never produced, so they have no constructor
(notes/assumptions/11.md). The 4-bit value of each is `Status.code` of Machine/Flags.lean. -/
inductive Status where
  /-- 0: the operation completed with no error -/
  | ok
  /-- 1 -/
  | framingError
  /-- 2 -/
  | codecUncorrectable
  /-- 3 -/
  | integrityMismatch
  /-- 4 -/
  | protocolError
  /-- 5 -/
  | transportError
  /-- 6 -/
  | invalidState
  /-- 7 -/
  | illegalOpcode
  /-- 8 -/
  | invalidArgument
  /-- 9 -/
  | unknownType
  /-- 10 -/
  | oversize
deriving DecidableEq, Repr

/-- The Reliable Socket state (10_state.md R33). -/
inductive Fsm where
  | idle | awaitingAck | closed
deriving DecidableEq, Repr

/-- The state record `st`: exactly the elements of 10_state.md R30. -/
structure St where
  /-- Reliable Socket state (R33) -/
  fsm : Fsm
  /-- stored raw bytes of the outstanding Data packet (R34) -/
  pending : Option Buffer
  /-- address the pending packet is sent to (R35) -/
  target : Option Addr
  /-- retry timer armed (R36) -/
  timerActive : Bool
  /-- time units left until the next retransmission (R37) -/
  timerCount : Word32
  /-- interval latched when the timer was armed (R38) -/
  sessInterval : Word32
  /-- `false` = 0, non-interleaved; `true` = 1, interleaved wire format (R39) -/
  cfgMode : Bool
  /-- interval the next `SEND` arms the timer with (R40) -/
  cfgTimeout : Word32
  /-- code of the most recent error (R41) -/
  lastErr : Status
  /-- `TX` output events (R42) -/
  cntTx : Word32
  /-- retransmissions (R42) -/
  cntRetx : Word32
  /-- `DELIVER` output events (R42) -/
  cntDeliver : Word32
  /-- datagrams dropped by `RX` (R42) -/
  cntDrop : Word32
deriving DecidableEq, Repr

/-- The response record; each field starts at its default (30_encoding.md R96). -/
structure Resp where
  /-- error code (60_exceptions.md R270) -/
  status : Status := .ok
  /-- scalar result -/
  val : Word32 := 0#32
  /-- `valid` of `decode` and of `parsePacket` -/
  valid : Bool := false
  /-- `unrecoverable` of `checkAndCorrect` -/
  unrec : Bool := false
  /-- `hammingValid` of `parsePacket` -/
  hvalid : Bool := false
  /-- `digestMatches` of `parsePacket` -/
  dmatch : Bool := false
  /-- packet type byte from `parsePacket` -/
  ptype : Byte := 0#8
  /-- paddingSize byte from `parsePacket` -/
  pad : Byte := 0#8
  /-- buffer result -/
  data : Buffer := []
deriving DecidableEq, Repr

/-- The output events (30_encoding.md R97). -/
inductive Event where
  /-- `TX(bytes, addr)`, to the transport -/
  | tx (bytes : Buffer) (addr : Addr)
  /-- `T_BIND(addr)`, to the transport -/
  | tBind (addr : Addr)
  /-- `T_CLOSE`, to the transport -/
  | tClose
  /-- `DELIVER(bytes, addr)`, to the host -/
  | deliver (bytes : Buffer) (addr : Addr)
  /-- `ERROR(code, val)`, to the host -/
  | error (code : Status) (val : Word32)
  /-- `LISTENING_OUT`, to the host -/
  | listeningOut
deriving DecidableEq, Repr

/-- Why a step can stop. Both are raised by `TICK` alone, in states that 10_state.md R44 says no run reaches: the
spec's pseudocode has no value there, and its own comment is "timer_count >= 1 here" (44_socket.md R208). Safe: the
model stops where the spec says nothing (notes/assumptions/8.md). -/
inductive Fault where
  /-- `TICK` found the timer armed with `timer_count = 0`, so `timer_count - 1` has no value (R44, point 4). Safe. -/
  | timerUnderflow
  /-- `TICK` reached expiry with `pending` or `target` none, so `TX(st.pending, st.target)` has no value (R44, points
  1 to 3). Safe. -/
  | nothingToRetransmit
deriving DecidableEq, Repr

/-- Why a step can give an operation no meaning. -/
inductive Refusal where
  /-- An arm of `exec` that has no meaning yet would answer this; every arm has one, so nothing raises it. Safe. -/
  | notModelled (mnemonic : String)
deriving DecidableEq, Repr

/-- The machine: the architectural state `st`, and the model's own fields that carry the interface of 00_scope.md R3,
`step(st, op) -> (st', resp, outs)`. -/
structure State where
  /-- the architectural state (10_state.md R30) -/
  st : St
  /-- MODEL's own: what has been presented and not yet accepted, oldest first (60_exceptions.md R279) -/
  inputs : List Input
  /-- MODEL's own: the operation being processed (30_encoding.md R90) -/
  op : Op
  /-- MODEL's own: the response of the latest operation; none when there is none (30_encoding.md R96) -/
  resp : Option Resp
  /-- MODEL's own: the output events of the latest operation (30_encoding.md R97) -/
  outs : List Event
  /-- MODEL's own: every output event so far, in order (20_memory.md R82) -/
  wire : List Event
  /-- MODEL's own: the build parameter `MAX_BUF_LEN`, `none` for unbounded; no step writes it (00_scope.md R8,
  70_reset_and_hazards.md R311) -/
  maxBufLen : Option Nat
deriving DecidableEq, Repr

/-- The three outcomes of a step. -/
abbrev Result := Host.Outcome State Fault Refusal

/-- The reset value of every architectural element (10_state.md R58, 70_reset_and_hazards.md R310). -/
def St.reset : St where
  fsm := .idle
  pending := none
  target := none
  timerActive := false
  timerCount := 0#32
  sessInterval := 0#32
  cfgMode := false
  cfgTimeout := timeoutDefault
  lastErr := .ok
  cntTx := 0#32
  cntRetx := 0#32
  cntDeliver := 0#32
  cntDrop := 0#32

/-- The machine right after power-on, which is a reset (70_reset_and_hazards.md R310): nothing presented, no response,
no event. The operation record's value is the model's choice (notes/assumptions/18.md) and nothing reads it; the build
parameter is the open constant (notes/assumptions/5.md). -/
def State.reset : State where
  st := St.reset
  inputs := []
  op := { w := 0#16 }
  resp := none
  outs := []
  wire := []
  maxBufLen := Config.maxBufLen

end Sys2Proof.Machine
end

