-- ==== Sys2Proof/Machine/Flags.lean ====
section
/-!
DEFINITION. Codes and statuses: the 4-bit status codes (60_exceptions.md R270), the fields of `STATUS` (10_state.md R49),
and how the result flags of an operation decide its status (60_exceptions.md R280, 43_framer.md R176). The block keeps no
persistent flags (10_state.md R43).
-/

namespace Sys2Proof.Machine

open Sys2Proof

/-- The 4-bit code of a status (60_exceptions.md R270). -/
def Status.code : Status → BitVec 4
  | .ok => 0#4
  | .framingError => 1#4
  | .codecUncorrectable => 2#4
  | .integrityMismatch => 3#4
  | .protocolError => 4#4
  | .transportError => 5#4
  | .invalidState => 6#4
  | .illegalOpcode => 7#4
  | .invalidArgument => 8#4
  | .unknownType => 9#4
  | .oversize => 10#4

/-- `enc(fsm)` of `STATUS.FSM` (45_registers.md R250, 10_state.md R33). -/
def Fsm.code : Fsm → BitVec 2
  | .idle => 0#2
  | .awaitingAck => 1#2
  | .closed => 2#2

/-- The `STATUS` register: bits 1:0 `FSM`, bit 2 `TA`, bit 3 `PV`, bits 31:4 zero (10_state.md R49). -/
def St.statusWord (st : St) : Word32 :=
  (BitVec.ofBool st.pending.isSome ++ BitVec.ofBool st.timerActive ++ st.fsm.code).setWidth 32

/-- The status of a word operation whose word was `unrecoverable` or not (41_hamming.md R120, R121). -/
def wordStatus (unrec : Bool) : Status := if unrec then .codecUncorrectable else .ok

/-- The status of a buffer decode (41_hamming.md R116). -/
def decodeStatus (valid : Bool) : Status := if valid then .ok else .codecUncorrectable

/-- `valid = hammingValid AND digestMatches`, and the status of a parse: an unrecoverable word ranks above a digest
mismatch (43_framer.md R176, 60_exceptions.md R280). -/
def parseStatus (hvalid dmatch : Bool) : Status :=
  if hvalid && dmatch then .ok else if hvalid then .integrityMismatch else .codecUncorrectable

end Sys2Proof.Machine
end

