-- ==== Sys2Proof/Machine/Codec.lean ====
section
/-!
DEFINITION. The functions of the Hamming(15,11) extended codec (41_hamming.md R110 to R116).
-/

namespace Sys2Proof.Machine

open Sys2Proof

/-- `DATA_POSITIONS`: data bit `k` stands at the `k`-th of these positions (41_hamming.md R110). -/
def dataPositions : List Nat := [3, 5, 6, 7, 9, 10, 11, 12, 13, 14, 15]

/-- The position of data bit `k` (41_hamming.md R110). -/
def dataPosition (k : Nat) : Nat := dataPositions.getD k 0

/-- The word with bit `p` equal to `b` and every other bit 0. -/
def bitAt (p : Nat) (b : Bool) : Word16 := (BitVec.ofBool b).setWidth 16 <<< p

/-- `Place(d)`: data bit `k` at `DATA_POSITIONS[k]`, positions 0, 1, 2, 4 and 8 zero (41_hamming.md R110). -/
def place (d : Data11) : Word16 :=
  (List.range 11).foldl (fun w k => w ||| bitAt (dataPosition k) (d.getLsbD k)) 0#16

/-- `Extract(w)`: the 11 data bits of a word (41_hamming.md R114). -/
def extract (w : Word16) : Data11 :=
  BitVec.ofNat 11 (natOfBits (dataPositions.map w.getLsbD))

/-- The XOR of the positions, among `ps`, of the set bits of `w`: the 4-bit syndrome (41_hamming.md R111, R112). -/
def syndromeOver (ps : List Nat) (w : Word16) : BitVec 4 :=
  ps.foldl (fun syn p => if w.getLsbD p then syn ^^^ BitVec.ofNat 4 p else syn) 0#4

/-- The XOR of the bits of `w` at the positions `ps` (41_hamming.md R111, R112). -/
def parityOver (ps : List Nat) (w : Word16) : Bool := ps.foldl (fun par p => par ^^ w.getLsbD p) false

/-- `Parity(w)`: the four syndrome bits at positions 1, 2, 4 and 8, and at position 0 the overall parity of the data
bits and of those four (41_hamming.md R111). -/
def parityBits (w : Word16) : Word16 :=
  let syn := syndromeOver dataPositions w
  let overall := (List.range 4).foldl (fun o i => o ^^ syn.getLsbD i) (parityOver dataPositions w)
  (List.range 4).foldl (fun r i => r ||| bitAt (2 ^ i) (syn.getLsbD i)) (bitAt 0 overall)

/-- `EncWord(d)`: the codeword of an 11-bit value (41_hamming.md R113). -/
def encWord (d : Data11) : Word16 := place d ||| parityBits (place d)

/-- The result of `CheckAndCorrect`: the source's "unrecoverable" and "corrected-or-original" word
(41_hamming.md R112). -/
structure Checked where
  unrec : Bool
  word : Word16
deriving DecidableEq, Repr

/-- `CheckAndCorrect(w)` (41_hamming.md R112). A nonzero syndrome with even parity is two or more wrong bits: the word
comes back unmodified. With odd parity the bit at the syndrome's position is flipped, position 0 included
(90_conflicts.md C1). -/
def checkAndCorrect (w : Word16) : Checked :=
  let syn := syndromeOver (List.range 16) w
  let par := parityOver (List.range 16) w
  if syn ≠ 0#4 then
    if par then ⟨false, w ^^^ bitAt syn.toNat true⟩ else ⟨true, w⟩
  else if par then ⟨false, w ^^^ bitAt 0 true⟩
  else ⟨false, w⟩

/-- The 11-bit value of data bits `11*k` to `11*k + 10` of a chunk's bits (41_hamming.md R115). -/
def dataWord (s : List Bool) (k : Nat) : Data11 :=
  BitVec.ofNat 11 (natOfBits ((s.drop (11 * k)).take 11))

/-- One coded block: the eight little-endian codewords of an 11-byte chunk (41_hamming.md R115). -/
def encodeChunk (chunk : Buffer) : Buffer :=
  (List.range 8).flatMap fun k => writeWordLE (encWord (dataWord (bitsOf chunk) k))

/-- The coded blocks of `n` chunks, a short chunk padded with zeros (41_hamming.md R115). -/
def encodeChunks : Nat → Buffer → Buffer
  | 0, _ => []
  | n + 1, b =>
    let chunk := b.take chunkLen
    encodeChunk (chunk ++ zeros (chunkLen - chunk.length)) ++ encodeChunks n (b.drop chunkLen)

/-- `Encode(b)`: a buffer of `16 * ceil(len(b)/11)` bytes (41_hamming.md R115). -/
def encodeBuffer (b : Buffer) : Buffer := encodeChunks ((b.length + 10) / chunkLen) b

/-- The 11 data bits of a value, least significant first (41_hamming.md R116). -/
def bitsOfData (d : Data11) : List Bool := (List.range 11).map d.getLsbD

/-- The eight checked words of a coded block (41_hamming.md R116). -/
def checkBlock (block : Buffer) : List Checked :=
  (List.range 8).map fun k => checkAndCorrect (readWordLE block (2 * k))

/-- The 11 bytes decoded from a coded block, best effort where a word is unrecoverable (41_hamming.md R116). -/
def decodeBlock (block : Buffer) : Buffer :=
  bitsToBuffer ((checkBlock block).flatMap fun c => bitsOfData (extract c.word))

/-- Whether every word of a coded block is recoverable (41_hamming.md R116). -/
def blockValid (block : Buffer) : Bool := (checkBlock block).all fun c => !c.unrec

/-- The decoded bytes of `n` coded blocks (41_hamming.md R116). -/
def decodeBlocks : Nat → Buffer → Buffer
  | 0, _ => []
  | n + 1, b => decodeBlock (b.take blockLen) ++ decodeBlocks n (b.drop blockLen)

/-- Whether every word of `n` coded blocks is recoverable (41_hamming.md R116). -/
def blocksValid : Nat → Buffer → Bool
  | 0, _ => true
  | n + 1, b => blockValid (b.take blockLen) && blocksValid n (b.drop blockLen)

/-- The result of `Decode` (41_hamming.md R116). -/
structure Decoded where
  status : Status
  valid : Bool
  data : Buffer
deriving DecidableEq, Repr

/-- `Decode(b)`: a misaligned buffer is a framing error with nothing decoded; otherwise every block is decoded, and
`valid` is 0 if any word is unrecoverable (41_hamming.md R116). -/
def decodeBuffer (b : Buffer) : Decoded :=
  if b.length % blockLen ≠ 0 then ⟨.framingError, false, []⟩
  else
    let n := b.length / blockLen
    ⟨decodeStatus (blocksValid n b), blocksValid n b, decodeBlocks n b⟩

end Sys2Proof.Machine
end

