-- ==== Sys2Proof/Machine/Ops.lean ====
section
/-!
DEFINITION. The shared operations on the state: how an operation ends, how an error is raised (00_scope.md R13,
60_exceptions.md R272, R273), the session primitives and counters (44_socket.md R201, 10_state.md R42), and the register
map (10_state.md R46).
-/

namespace Sys2Proof.Machine

open Sys2Proof

/-- The `last_err` update at the end of every operation: a nonzero status is recorded, `OK` changes nothing
(60_exceptions.md R273). -/
def St.record (st : St) (x : Status) : St := { st with lastErr := if x = .ok then st.lastErr else x }

/-- The state after an operation that leaves the architectural state `st`, returns `resp` and emits `outs`
(00_scope.md R3, 60_exceptions.md R273). -/
def State.commit (s : State) (st : St) (resp : Resp) (outs : List Event) : State :=
  { s with st := st.record resp.status, resp := some resp, outs := outs, wire := s.wire ++ outs }

/-- End an operation with a new architectural state, a response and output events. -/
def complete (s : State) (st : St) (resp : Resp) (outs : List Event) : Result := .next (s.commit st resp outs)

/-- End an operation with a response only. -/
def answer (s : State) (resp : Resp) : Result := complete s s.st resp []

/-- `raise X`: the status is `X` and `last_err` takes it; every other state element, every other response field and the
output list are left alone (00_scope.md R13, 60_exceptions.md R272). The block has no trap entry and no return from one
(60_exceptions.md R276, R277): the next operation is processed next. -/
def raise (s : State) (x : Status) : Result := answer s { status := x }

/-- `Disarm()` (44_socket.md R201). -/
def St.disarm (st : St) : St :=
  { st with timerActive := false, timerCount := 0#32, pending := none, target := none }

/-- What `SEND` does to the session: store the packet and its address, latch the interval and arm the timer
(44_socket.md R202). -/
def St.arm (st : St) (raw : Buffer) (addr : Addr) : St :=
  { st with
    pending := some raw, target := some addr, sessInterval := st.cfgTimeout, timerCount := st.cfgTimeout,
    timerActive := true, fsm := .awaitingAck }

/-- The `CLOSE` of the session (44_socket.md R203, R209). -/
def St.shut (st : St) : St := { st.disarm with fsm := .closed }

/-- One more `TX` event, modulo 2^32 (10_state.md R42). -/
def St.countTx (st : St) : St := { st with cntTx := st.cntTx + 1#32 }

/-- One more retransmission, modulo 2^32 (10_state.md R42). -/
def St.countRetx (st : St) : St := { st with cntRetx := st.cntRetx + 1#32 }

/-- One more `DELIVER` event, modulo 2^32 (10_state.md R42). -/
def St.countDeliver (st : St) : St := { st with cntDeliver := st.cntDeliver + 1#32 }

/-- One more dropped datagram, modulo 2^32 (10_state.md R42). -/
def St.countDrop (st : St) : St := { st with cntDrop := st.cntDrop + 1#32 }

/-- `Drop(X)`: `RX` reports the status and counts the datagram; nothing is emitted (44_socket.md R205). `resp` holds
the parse fields `RX` had set before the drop. -/
def dropDatagram (s : State) (resp : Resp) (x : Status) : Result :=
  complete s s.st.countDrop { resp with status := x } []

/-- The value of a register slot, or `none` where the number names no register (10_state.md R46 to R57,
45_registers.md R250). -/
def readRegister (st : St) (reg : Nat) : Option Word32 :=
  match reg with
  | 0 => some ((BitVec.ofBool st.cfgMode).setWidth 32)
  | 1 => some st.cfgTimeout
  | 2 => some st.statusWord
  | 3 => some (st.lastErr.code.setWidth 32)
  | 4 => some st.timerCount
  | 5 => some st.sessInterval
  | 6 => some st.cntTx
  | 7 => some st.cntRetx
  | 8 => some st.cntDeliver
  | 9 => some st.cntDrop
  | _ => none

/-- A `CTRL` write: only in `Idle`, with bits 31:1 zero, the state check first (45_registers.md R252). -/
def writeCtrl (st : St) (v : Word32) : Except Status St :=
  if st.fsm ≠ .idle then .error .invalidState
  else if v.extractLsb' 1 31 ≠ 0#31 then .error .invalidArgument
  else .ok { st with cfgMode := v.getLsbD 0 }

/-- A `TIMEOUT` write: any value but 0, in every state (45_registers.md R253). -/
def writeTimeout (st : St) (v : Word32) : Except Status St :=
  if v = 0#32 then .error .invalidArgument else .ok { st with cfgTimeout := v }

/-- A register write: the new state, or the error it raises (45_registers.md R251 to R254). Registers 2 and 4 to 9 are
read-only, and numbers from 10 name no register. -/
def writeRegister (st : St) (reg : Nat) (v : Word32) : Except Status St :=
  match reg with
  | 0 => writeCtrl st v
  | 1 => writeTimeout st v
  | 3 => .ok { st with lastErr := .ok }
  | _ => .error .invalidArgument

end Sys2Proof.Machine
end

