-- ==== Sys2Proof/Machine/Operands.lean ====
section
/-!
DEFINITION. The operand forms: the scalar operands of the word operations with their range checks (41_hamming.md R117)
and the buffer operand with its length check (30_encoding.md R99, point 4).
-/

namespace Sys2Proof.Machine

open Sys2Proof

/-- A 16-bit word in `op.val[15:0]`; none where `op.val[31:16] ≠ 0` (41_hamming.md R117). -/
def wordOperand (v : Word32) : Option Word16 :=
  if v.extractLsb' 16 16 = 0#16 then some (v.extractLsb' 0 16) else none

/-- An 11-bit value in `op.val[10:0]`; none where `op.val[31:11] ≠ 0` (41_hamming.md R117). -/
def dataOperand (v : Word32) : Option Data11 :=
  if v.extractLsb' 11 21 = 0#21 then some (v.extractLsb' 0 11) else none

/-- Whether a buffer of `n` bytes is longer than `MAX_BUF_LEN` (00_scope.md R8). An empty buffer is never too long,
whatever the limit. -/
def tooLong (limit : Option Nat) (n : Nat) : Bool :=
  match n with
  | 0 => false
  | m + 1 =>
    match limit with
    | none => false
    | some max => decide (max < m + 1)

/-- `len(op.data) > MAX_BUF_LEN` (30_encoding.md R99, point 4). -/
def State.oversize (s : State) : Bool := tooLong s.maxBufLen s.op.data.length

/-- An operation on a 16-bit word operand (41_hamming.md R117). -/
def withWord (s : State) (k : Word16 → Result) : Result :=
  match wordOperand s.op.val with
  | none => raise s .invalidArgument
  | some w => k w

/-- An operation on an 11-bit operand (41_hamming.md R117). -/
def withData11 (s : State) (k : Data11 → Result) : Result :=
  match dataOperand s.op.val with
  | none => raise s .invalidArgument
  | some d => k d

/-- An operation on the buffer operand, for which a buffer beyond `MAX_BUF_LEN` raises `Oversize`
(30_encoding.md R99, point 4). -/
def withBuffer (s : State) (k : Buffer → Result) : Result :=
  if s.oversize then raise s .oversize else k s.op.data

end Sys2Proof.Machine
end

