-- ==== Sys2Proof/Machine/Hamming.lean ====
section
/-!
DEFINITION. The meanings of PARITY, ENCW, CHK, DECW, ENCODE and DECODE (41_hamming.md section 2).
-/

namespace Sys2Proof.Machine

open Sys2Proof

/-- `PARITY` (41_hamming.md R118). -/
def execParity (s : State) : Result :=
  withWord s fun w => answer s { val := (parityBits w).setWidth 32 }

/-- `ENCW` (41_hamming.md R119). -/
def execEncw (s : State) : Result :=
  withData11 s fun d => answer s { val := (encWord d).setWidth 32 }

/-- `CHK`: with an unrecoverable word the status is `CodecUncorrectable` and the word is still returned
(41_hamming.md R120). -/
def execChk (s : State) : Result :=
  withWord s fun w =>
    let c := checkAndCorrect w
    answer s { status := wordStatus c.unrec, unrec := c.unrec, val := c.word.setWidth 32 }

/-- `DECW`: with an unrecoverable word the data bits are the uncorrected word's (41_hamming.md R121). -/
def execDecw (s : State) : Result :=
  withWord s fun w =>
    let c := checkAndCorrect w
    answer s { status := wordStatus c.unrec, unrec := c.unrec, val := (extract c.word).setWidth 32 }

/-- `ENCODE` (41_hamming.md R122). -/
def execEncode (s : State) : Result :=
  withBuffer s fun b => answer s { data := encodeBuffer b }

/-- `DECODE`: the best-effort data is returned with either status (41_hamming.md R123). -/
def execDecode (s : State) : Result :=
  withBuffer s fun b =>
    let d := decodeBuffer b
    answer s { status := d.status, valid := d.valid, data := d.data }

end Sys2Proof.Machine
end

