-- ==== Sys2Proof/Machine/Transpose.lean ====
section
/-!
DEFINITION. The functions of the block interleaver (42_interleaver.md R150, R151). Both answer `none` for the framing
error of a buffer whose length is not a multiple of 16.
-/

namespace Sys2Proof.Machine

open Sys2Proof

/-- `Interleave` of one 16-byte super-block: bit `j` of word `w`, which is stream bit `16*w + j`, goes to output byte
`j`, bit position `w` (42_interleaver.md R150; 90_conflicts.md C2). -/
def interleaveBlock (block : Buffer) : Buffer :=
  (List.range 16).map fun j =>
    byteOfBits ((List.range 8).map fun w => (bitsOf block).getD (16 * w + j) false)

/-- `Deinterleave` of one 16-byte super-block: stream bit `i` is bit `i div 16` of byte `i mod 16`
(42_interleaver.md R151; 90_conflicts.md C3). -/
def deinterleaveBlock (block : Buffer) : Buffer :=
  bitsToBuffer ((List.range 128).map fun i => (block.getD (i % 16) 0#8).getLsbD (i / 16))

/-- A function of 16-byte blocks, applied to each of the first `n` blocks of a buffer. -/
def mapBlocks (f : Buffer → Buffer) : Nat → Buffer → Buffer
  | 0, _ => []
  | n + 1, b => f (b.take blockLen) ++ mapBlocks f n (b.drop blockLen)

/-- `Interleave(b)` (42_interleaver.md R150). -/
def interleave (b : Buffer) : Option Buffer :=
  if b.length % blockLen ≠ 0 then none else some (mapBlocks interleaveBlock (b.length / blockLen) b)

/-- `Deinterleave(b)` (42_interleaver.md R151). -/
def deinterleave (b : Buffer) : Option Buffer :=
  if b.length % blockLen ≠ 0 then none else some (mapBlocks deinterleaveBlock (b.length / blockLen) b)

end Sys2Proof.Machine
end

