-- ==== Sys2Proof/Machine/Interleaver.lean ====
section
/-!
DEFINITION. The meanings of INTERLEAVE and DEINTERLEAVE (42_interleaver.md section 2).
-/

namespace Sys2Proof.Machine

open Sys2Proof

/-- Return the buffer of either interleaver direction, or raise its framing error (42_interleaver.md R154, R155). -/
def answerBlocks (s : State) (out : Option Buffer) : Result :=
  match out with
  | none => raise s .framingError
  | some b => answer s { data := b }

/-- `INTERLEAVE` (42_interleaver.md R154). -/
def execInterleave (s : State) : Result := withBuffer s fun b => answerBlocks s (interleave b)

/-- `DEINTERLEAVE` (42_interleaver.md R155). -/
def execDeinterleave (s : State) : Result := withBuffer s fun b => answerBlocks s (deinterleave b)

end Sys2Proof.Machine
end

