-- ==== Sys2Proof/Machine/Registers.lean ====
section
/-!
DEFINITION. The meanings of RDREG and WRREG (45_registers.md).
-/

namespace Sys2Proof.Machine

open Sys2Proof

/-- `RDREG`: a read has no side effect; a number that names no register raises `InvalidArgument`
(45_registers.md R250). -/
def execRdreg (reg : Nat) (s : State) : Result :=
  match readRegister s.st reg with
  | none => raise s .invalidArgument
  | some v => answer s { val := v }

/-- `WRREG` (45_registers.md R251 to R254). -/
def execWrreg (reg : Nat) (s : State) : Result :=
  match writeRegister s.st reg s.op.val with
  | .error x => raise s x
  | .ok st => complete s st {} []

end Sys2Proof.Machine
end

