-- ==== Sys2Proof/Machine/Packet.lean ====
section
/-!
DEFINITION. The functions of the packet framer (43_framer.md R170 to R177). The digest is an argument here, as
00_scope.md R8 asks; the operations of Machine/Framer.lean and Machine/Socket.lean pass `Config.digest`.
-/

namespace Sys2Proof.Machine

open Sys2Proof

/-- The packet types: Data = 1, Acknowledgement = 2 (43_framer.md R170, 00_scope.md R7). -/
inductive PacketType where
  | data | ack
deriving DecidableEq, Repr

/-- `TYPE_DATA`, `TYPE_ACK` (00_scope.md R7). -/
def PacketType.byte : PacketType → Byte
  | .data => 1#8
  | .ack => 2#8

/-- The packet type a byte codes; no other value is a packet type (43_framer.md R170). -/
def PacketType.ofByte (t : Byte) : Option PacketType :=
  if t = 1#8 then some .data else if t = 2#8 then some .ack else none

/-- `PaddingSize(m)`: the number of zero bytes the encoder adds to a framed buffer with an `m`-byte message
(43_framer.md R171; 90_conflicts.md C5). -/
def paddingSize (m : Nat) : Nat := (11 - (headerLen + m) % 11) % 11

/-- `[t, p] ++ msg` with `p = PaddingSize(len(msg))`: what the digest covers (43_framer.md R172). -/
def packetContent (t : Byte) (msg : Buffer) : Buffer :=
  t :: BitVec.ofNat 8 (paddingSize msg.length) :: msg

/-- `DIGEST(content) ++ content` (43_framer.md R172). -/
def sealContent (digest : Buffer → Vector Byte 16) (content : Buffer) : Buffer :=
  (digest content).toList ++ content

/-- `Frame(t, msg)`: an Acknowledgement carries no message (43_framer.md R172). -/
def frame (digest : Buffer → Vector Byte 16) (t : PacketType) (msg : Buffer) : Buffer :=
  sealContent digest (packetContent t.byte (match t with | .data => msg | .ack => []))

/-- A framed buffer as it is transmitted: encoded, and interleaved in mode 1. `Interleave` never fails on a coded
buffer (43_framer.md R173). -/
def transmitted (framed : Buffer) (mode : Bool) : Buffer :=
  if mode then (interleave (encodeBuffer framed)).getD [] else encodeBuffer framed

/-- `BuildRaw(t, msg, mode)` (43_framer.md R173). -/
def buildRaw (digest : Buffer → Vector Byte 16) (t : PacketType) (msg : Buffer) (mode : Bool) : Buffer :=
  transmitted (frame digest t msg) mode

/-- The record `ParseRaw` returns (43_framer.md R174). -/
structure Parsed where
  status : Status
  valid : Bool
  hvalid : Bool
  dmatch : Bool
  ptype : Byte
  pad : Byte
  msg : Buffer
deriving DecidableEq, Repr

/-- `fail(FramingError)`: every flag 0, `ptype = 0`, `pad = 0`, `msg = []` (43_framer.md R174). -/
def Parsed.framingFailure : Parsed := ⟨.framingError, false, false, false, 0#8, 0#8, []⟩

/-- Where the message ends: `max(18, len(dec) - pad)` (43_framer.md R175). The subtraction is of natural numbers: a
`pad` beyond `len(dec)` leaves 18, as the maximum does. -/
def messageEnd (dec : Buffer) : Nat := max headerLen (dec.length - (dec.getD 17 0#8).toNat)

/-- Field extraction and digest check of a decoded packet (43_framer.md R175, R176). -/
def parseDecoded (digest : Buffer → Vector Byte 16) (hv : Bool) (dec : Buffer) : Parsed :=
  let dmatch := decide ((digest (slice dec digestLen (messageEnd dec))).toList = slice dec 0 digestLen)
  { status := parseStatus hv dmatch
    valid := hv && dmatch
    hvalid := hv
    dmatch := dmatch
    ptype := dec.getD 16 0#8
    pad := dec.getD 17 0#8
    msg := slice dec headerLen (messageEnd dec) }

/-- The coded buffer inside a received buffer: deinterleaved in mode 1; none for a framing error (43_framer.md
R174). -/
def codedOf (raw : Buffer) (mode : Bool) : Option Buffer := if mode then deinterleave raw else some raw

/-- `ParseRaw(raw, mode)` (43_framer.md R174 to R177). The type byte is not checked. -/
def parseRaw (digest : Buffer → Vector Byte 16) (raw : Buffer) (mode : Bool) : Parsed :=
  if raw.length < minRawLen then Parsed.framingFailure
  else
    match codedOf raw mode with
    | none => Parsed.framingFailure
    | some coded =>
      let d := decodeBuffer coded
      if d.status = .framingError then Parsed.framingFailure else parseDecoded digest d.valid d.data

end Sys2Proof.Machine
end

