-- ==== Sys2Proof/Machine/Framer.lean ====
section
/-!
DEFINITION. The meanings of BUILD and PARSE (43_framer.md section 2).
-/

namespace Sys2Proof.Machine

open Sys2Proof

/-- `BUILD`: the length check comes before the type check, and an Acknowledgement ignores the buffer
(43_framer.md R178). -/
def execBuild (ptype : Byte) (s : State) : Result :=
  withBuffer s fun b =>
    match PacketType.ofByte ptype with
    | none => raise s .protocolError
    | some t => answer s { data := buildRaw Config.digest t b s.st.cfgMode }

/-- The response fields a parse sets, before the status and the message (43_framer.md R179, 44_socket.md R205). -/
def Parsed.flags (r : Parsed) : Resp :=
  { valid := r.valid, hvalid := r.hvalid, dmatch := r.dmatch, ptype := r.ptype, pad := r.pad }

/-- `PARSE` (43_framer.md R179). -/
def execParse (s : State) : Result :=
  withBuffer s fun b =>
    let r := parseRaw Config.digest b s.st.cfgMode
    answer s { r.flags with status := r.status, data := r.msg }

end Sys2Proof.Machine
end

