-- ==== Sys2Proof/Machine/Socket.lean ====
section
/-!
DEFINITION. The meanings of SEND, CLOSE, BIND, RX, TICK, TXERR and LISTENING (44_socket.md).
-/

namespace Sys2Proof.Machine

open Sys2Proof

/-- `SEND`: refused outside `Idle` before anything else is looked at (44_socket.md R202). -/
def execSend (s : State) : Result :=
  if s.st.fsm ≠ .idle then raise s .invalidState
  else
    withBuffer s fun msg =>
      let raw := buildRaw Config.digest .data msg s.st.cfgMode
      complete s (s.st.countTx.arm raw s.op.addr) {} [.tx raw s.op.addr]

/-- `CLOSE`: no effect in `Closed` (44_socket.md R203). -/
def execClose (s : State) : Result :=
  if s.st.fsm = .closed then answer s {} else complete s s.st.shut {} [.tClose]

/-- `BIND`: changes no state (44_socket.md R204). -/
def execBind (s : State) : Result :=
  if s.st.fsm = .closed then raise s .invalidState else complete s s.st {} [.tBind s.op.addr]

/-- `RX` of a valid Acknowledgement: it satisfies the outstanding send, whoever sent it; in `Idle` it is ignored
(44_socket.md R206). -/
def acceptAck (s : State) (resp : Resp) : Result :=
  if s.st.fsm = .awaitingAck then complete s { s.st.disarm with fsm := .idle } resp [] else answer s resp

/-- `RX` of a valid Data packet: deliver, then acknowledge to the sender; the session is unchanged
(44_socket.md R207). -/
def acceptData (s : State) (resp : Resp) (msg : Buffer) : Result :=
  complete s s.st.countDeliver.countTx resp
    [.deliver msg s.op.addr, .tx (buildRaw Config.digest .ack [] s.st.cfgMode) s.op.addr]

/-- What `RX` does with a parsed datagram (44_socket.md R205). -/
def acceptParsed (s : State) (r : Parsed) : Result :=
  if r.valid then
    match PacketType.ofByte r.ptype with
    | some .ack => acceptAck s r.flags
    | some .data => acceptData s r.flags r.msg
    | none => dropDatagram s r.flags .unknownType
  else dropDatagram s r.flags r.status

/-- `RX`: ignored in `Closed`; an oversize datagram is dropped, not raised (44_socket.md R205). -/
def execRx (s : State) : Result :=
  if s.st.fsm = .closed then answer s {}
  else if s.oversize then dropDatagram s {} .oversize
  else acceptParsed s (parseRaw Config.digest s.op.data s.st.cfgMode)

/-- The expiry of the retry timer: the stored bytes go to the stored address again and the count is reloaded
(44_socket.md R208). A state with nothing stored is one 10_state.md R44 rules out. -/
def retransmit (s : State) : Result :=
  match s.st.pending, s.st.target with
  | some bytes, some addr =>
    complete s { s.st.countTx.countRetx with timerCount := s.st.sessInterval } {} [.tx bytes addr]
  | _, _ => .fault .nothingToRetransmit

/-- `TICK`: no effect in `Closed` or with the timer disarmed; otherwise count down, and retransmit at 0
(44_socket.md R208). A count of 0 here is a state 10_state.md R44 rules out. -/
def execTick (s : State) : Result :=
  if s.st.fsm = .closed then answer s {}
  else if !s.st.timerActive then answer s {}
  else if s.st.timerCount = 0#32 then .fault .timerUnderflow
  else if s.st.timerCount = 1#32 then retransmit s
  else complete s { s.st with timerCount := s.st.timerCount - 1#32 } {} []

/-- `TXERR`: close the session and surface the error, `T_CLOSE` first; ignored in `Closed` (44_socket.md R209). -/
def execTxerr (s : State) : Result :=
  if s.st.fsm = .closed then answer s {}
  else complete s s.st.shut { status := .transportError } [.tClose, .error .transportError s.op.val]

/-- `LISTENING`: ignored in `Closed` (44_socket.md R210). -/
def execListening (s : State) : Result :=
  if s.st.fsm = .closed then answer s {} else complete s s.st {} [.listeningOut]

end Sys2Proof.Machine
end

