-- ==== Sys2Proof/Machine/Dispatch.lean ====
section
/-!
DEFINITION. The meaning of every operation of 30_encoding.md R93, one arm each.
-/

namespace Sys2Proof.Machine

open Sys2Proof

/-- The meaning of an operation on the state that holds its operands. -/
def exec (i : Instr) (s : State) : Host.Outcome State Fault Refusal :=
  match i with
  | .parity => Sys2Proof.Machine.execParity s
  | .encw => Sys2Proof.Machine.execEncw s
  | .chk => Sys2Proof.Machine.execChk s
  | .decw => Sys2Proof.Machine.execDecw s
  | .encode => Sys2Proof.Machine.execEncode s
  | .decode => Sys2Proof.Machine.execDecode s
  | .interleave => Sys2Proof.Machine.execInterleave s
  | .deinterleave => Sys2Proof.Machine.execDeinterleave s
  | .build ptype => Sys2Proof.Machine.execBuild ptype s
  | .parse => Sys2Proof.Machine.execParse s
  | .send => Sys2Proof.Machine.execSend s
  | .close => Sys2Proof.Machine.execClose s
  | .bind => Sys2Proof.Machine.execBind s
  | .rdreg reg => Sys2Proof.Machine.execRdreg reg s
  | .wrreg reg => Sys2Proof.Machine.execWrreg reg s
  | .rx => Sys2Proof.Machine.execRx s
  | .tick => Sys2Proof.Machine.execTick s
  | .txerr => Sys2Proof.Machine.execTxerr s
  | .listening => Sys2Proof.Machine.execListening s

end Sys2Proof.Machine
end

