-- ==== Sys2Proof/WellFormed.lean ====
section
/-!
DEFINITION. Which terms of `Instr` an operation word can hold (30_encoding.md R92, R95).
-/

namespace Sys2Proof

/-- `RDREG` and `WRREG` hold a 4-bit register number, `imm8[3:0]` (30_encoding.md R92); `BUILD` holds any byte; no
other operation holds anything. -/
def Instr.wellFormed : Instr → Bool
  | .rdreg reg | .wrreg reg => decide (reg < 16)
  | .build _ => true
  | .parity | .encw | .chk | .decw | .encode | .decode | .interleave | .deinterleave | .parse => true
  | .send | .close | .bind | .rx | .tick | .txerr | .listening => true

end Sys2Proof
end

