-- ==== Sys2Proof/Decode.lean ====
section
/-!
DEFINITION. The decoder of the operation word, total on all 65536 words (30_encoding.md R91 to R99), the encoder beside
it, and the opcode table as data.
-/

namespace Sys2Proof

/-- `opcode = op.w[15:8]` (30_encoding.md R91). -/
def opcodeOf (w : Word16) : Byte := w.extractLsb' 8 8

/-- `imm8 = op.w[7:0]` (30_encoding.md R91). -/
def imm8Of (w : Word16) : Byte := w.extractLsb' 0 8

/-- An operation whose `imm8` must be `0x00` (30_encoding.md R95, first case). -/
def fixedForm (imm : Byte) (i : Instr) : Option Instr :=
  if imm = 0#8 then some i else none

/-- An operation whose register number is `imm8[3:0]` and whose `imm8[7:4]` must be 0 (30_encoding.md R92; R95, second
case). -/
def registerForm (imm : Byte) (i : Nat → Instr) : Option Instr :=
  if imm.extractLsb' 4 4 = 0#4 then some (i (imm.extractLsb' 0 4).toNat) else none

/-- The operation a word selects, or `none` where it raises `IllegalOpcode` (30_encoding.md R93, R94, R95, R99). -/
def decode (w : Word16) : Option Instr :=
  if opcodeOf w = 0x01#8 then fixedForm (imm8Of w) .parity
  else if opcodeOf w = 0x02#8 then fixedForm (imm8Of w) .encw
  else if opcodeOf w = 0x03#8 then fixedForm (imm8Of w) .chk
  else if opcodeOf w = 0x04#8 then fixedForm (imm8Of w) .decw
  else if opcodeOf w = 0x05#8 then fixedForm (imm8Of w) .encode
  else if opcodeOf w = 0x06#8 then fixedForm (imm8Of w) .decode
  else if opcodeOf w = 0x07#8 then fixedForm (imm8Of w) .interleave
  else if opcodeOf w = 0x08#8 then fixedForm (imm8Of w) .deinterleave
  else if opcodeOf w = 0x09#8 then some (.build (imm8Of w))
  else if opcodeOf w = 0x0A#8 then fixedForm (imm8Of w) .parse
  else if opcodeOf w = 0x10#8 then fixedForm (imm8Of w) .send
  else if opcodeOf w = 0x11#8 then fixedForm (imm8Of w) .close
  else if opcodeOf w = 0x12#8 then fixedForm (imm8Of w) .bind
  else if opcodeOf w = 0x18#8 then registerForm (imm8Of w) .rdreg
  else if opcodeOf w = 0x19#8 then registerForm (imm8Of w) .wrreg
  else if opcodeOf w = 0x20#8 then fixedForm (imm8Of w) .rx
  else if opcodeOf w = 0x21#8 then fixedForm (imm8Of w) .tick
  else if opcodeOf w = 0x22#8 then fixedForm (imm8Of w) .txerr
  else if opcodeOf w = 0x23#8 then fixedForm (imm8Of w) .listening
  else none

/-- The opcode of an operation (30_encoding.md R93). -/
def Instr.opcode : Instr → Byte
  | .parity => 0x01#8
  | .encw => 0x02#8
  | .chk => 0x03#8
  | .decw => 0x04#8
  | .encode => 0x05#8
  | .decode => 0x06#8
  | .interleave => 0x07#8
  | .deinterleave => 0x08#8
  | .build _ => 0x09#8
  | .parse => 0x0A#8
  | .send => 0x10#8
  | .close => 0x11#8
  | .bind => 0x12#8
  | .rdreg _ => 0x18#8
  | .wrreg _ => 0x19#8
  | .rx => 0x20#8
  | .tick => 0x21#8
  | .txerr => 0x22#8
  | .listening => 0x23#8

/-- The immediate of an operation (30_encoding.md R92). -/
def Instr.imm8 : Instr → Byte
  | .build t => t
  | .rdreg reg | .wrreg reg => BitVec.ofNat 8 reg
  | .parity | .encw | .chk | .decw | .encode | .decode | .interleave | .deinterleave | .parse => 0#8
  | .send | .close | .bind | .rx | .tick | .txerr | .listening => 0#8

/-- The word of a well-formed operation: `opcode` in bits 15:8, `imm8` in bits 7:0 (30_encoding.md R91). -/
def encode (i : Instr) : Word16 := i.opcode ++ i.imm8

/-- A row of spec/opcode_table.json: the words that belong to a mnemonic are those with `w AND mask = pattern`. -/
structure OpcodeRow where
  mnemonic : String
  pattern : Word16
  mask : Word16
deriving DecidableEq, Repr

/-- spec/opcode_table.json. -/
def opcodeTable : List OpcodeRow :=
  [⟨"PARITY", 0x0100#16, 0xFFFF#16⟩, ⟨"ENCW", 0x0200#16, 0xFFFF#16⟩, ⟨"CHK", 0x0300#16, 0xFFFF#16⟩, ⟨"DECW", 0x0400#16, 0xFFFF#16⟩,
   ⟨"ENCODE", 0x0500#16, 0xFFFF#16⟩, ⟨"DECODE", 0x0600#16, 0xFFFF#16⟩, ⟨"INTERLEAVE", 0x0700#16, 0xFFFF#16⟩,
   ⟨"DEINTERLEAVE", 0x0800#16, 0xFFFF#16⟩, ⟨"BUILD", 0x0900#16, 0xFF00#16⟩, ⟨"PARSE", 0x0A00#16, 0xFFFF#16⟩,
   ⟨"SEND", 0x1000#16, 0xFFFF#16⟩, ⟨"CLOSE", 0x1100#16, 0xFFFF#16⟩, ⟨"BIND", 0x1200#16, 0xFFFF#16⟩, ⟨"RDREG", 0x1800#16, 0xFFF0#16⟩,
   ⟨"WRREG", 0x1900#16, 0xFFF0#16⟩, ⟨"RX", 0x2000#16, 0xFFFF#16⟩, ⟨"TICK", 0x2100#16, 0xFFFF#16⟩, ⟨"TXERR", 0x2200#16, 0xFFFF#16⟩,
   ⟨"LISTENING", 0x2300#16, 0xFFFF#16⟩]

/-- Whether a word belongs to a row of the opcode table. -/
def OpcodeRow.covers (r : OpcodeRow) (w : Word16) : Bool := w &&& r.mask == r.pattern

/-- The row an operation stands for. -/
def Instr.mnemonic : Instr → String
  | .parity => "PARITY"
  | .encw => "ENCW"
  | .chk => "CHK"
  | .decw => "DECW"
  | .encode => "ENCODE"
  | .decode => "DECODE"
  | .interleave => "INTERLEAVE"
  | .deinterleave => "DEINTERLEAVE"
  | .build _ => "BUILD"
  | .parse => "PARSE"
  | .send => "SEND"
  | .close => "CLOSE"
  | .bind => "BIND"
  | .rdreg _ => "RDREG"
  | .wrreg _ => "WRREG"
  | .rx => "RX"
  | .tick => "TICK"
  | .txerr => "TXERR"
  | .listening => "LISTENING"

/-- The word an operation of `nbits` bits `w` makes on the operation port; bits above `nbits` are 0. An operation is
one 16-bit word whose bits the opcode table numbers as 30_encoding.md R91 does. -/
def tableWord (nbits w : Nat) : Word16 := BitVec.ofNat 16 (w % 2 ^ nbits)

/-- What the decoder reads from the opcode table's bits `w`. -/
def decodeTableWord (nbits w : Nat) : Option Instr := decode (tableWord nbits w)

end Sys2Proof
end

