-- ==== Sys2Proof/Machine/Fetch.lean ====
section
/-!
DEFINITION. How the block accepts the next item of its input stream (30_encoding.md R98, R99; 60_exceptions.md R279;
70_reset_and_hazards.md R310). The block has no program counter and fetches no instructions (10_state.md R32).
-/

namespace Sys2Proof.Machine

open Sys2Proof

/-- What the block takes up next. -/
inductive Fetched where
  /-- nothing is presented -/
  | quiet
  /-- a reset event, with the state after it -/
  | reset (s : State)
  /-- an operation whose word is illegal, with the state that holds it -/
  | illegal (s : State)
  /-- an operation, with the state that holds its operands -/
  | instr (i : Instr) (s : State)

/-- The state that has taken up the operation `op` and has `rest` still to come. -/
def State.accept (s : State) (op : Op) (rest : List Input) : State := { s with op := op, inputs := rest }

/-- The state after a reset event: every architectural element at its reset value, no response and no event; what is
still to come, the events already emitted and the build parameter are left alone (70_reset_and_hazards.md R310 to
R312). -/
def State.takeReset (s : State) (rest : List Input) : State :=
  { s with st := St.reset, inputs := rest, resp := none, outs := [] }

/-- Take up the next item. The port an operation arrived on is not looked at (30_encoding.md R98). -/
def fetch (s : State) : Fetched :=
  match s.inputs with
  | [] => .quiet
  | .reset :: rest => .reset (s.takeReset rest)
  | .op _ op :: rest =>
    match decode op.w with
    | none => .illegal (s.accept op rest)
    | some i => .instr i (s.accept op rest)

/-- The state with an operation presented next, before everything already presented. -/
def State.present (s : State) (port : Port) (op : Op) : State := { s with inputs := .op port op :: s.inputs }

/-- The port an operation word is presented on: the one 30_encoding.md R93 gives its operation, and the host port for
a word that decodes to none. -/
def portOfWord (w : Word16) : Port :=
  match decode w with
  | some i => i.port
  | none => .host

end Sys2Proof.Machine
end

