-- ==== Sys2Proof/Machine/Step.lean ====
section
/-!
DEFINITION. One step: the block takes up the next item of its input stream and processes it (00_scope.md R3).
-/

namespace Sys2Proof.Machine

open Sys2Proof

/-- One step. With nothing presented the block holds all state unchanged (60_exceptions.md R286); an illegal word raises
`IllegalOpcode` (30_encoding.md R94, R95). -/
def step (s : State) : Host.Outcome State Fault Refusal :=
  match fetch s with
  | .quiet => .next s
  | .reset s' => .next s'
  | .illegal s' => raise s' .illegalOpcode
  | .instr i s' => exec i s'

/-- The state with the opcode table's word presented next, with the operands `data = []`, `addr = 0` and `val = 0`
(notes/assumptions/1.md). -/
def State.withFetchWord (s : State) (nbits w : Nat) : State :=
  s.present (portOfWord (tableWord nbits w)) { w := tableWord nbits w }

end Sys2Proof.Machine
end

