-- ==== Sys2Proof/Machine/Assembly.lean ====
section
/-!
DEFINITION. The assembly forms of 30_encoding.md R100 and the pseudo-instructions of R101, as terms: what operation
records each line stands for. The text of a line is not parsed (92_eei_decisions.md D28; notes/assumptions/15.md).
-/

namespace Sys2Proof.Machine

open Sys2Proof

/-- A register, by name or as `r0` to `r15` (30_encoding.md R100). -/
inductive RegName where
  | ctrl | timeout | status | lastErr | timerCount | sessInterval | cntTx | cntRetx | cntDeliver | cntDrop
  | r (n : Fin 16)
deriving DecidableEq, Repr

/-- The register number (10_state.md R46). -/
def RegName.number : RegName → Nat
  | .ctrl => 0
  | .timeout => 1
  | .status => 2
  | .lastErr => 3
  | .timerCount => 4
  | .sessInterval => 5
  | .cntTx => 6
  | .cntRetx => 7
  | .cntDeliver => 8
  | .cntDrop => 9
  | .r n => n.val

/-- One assembly line (30_encoding.md R100, R101). -/
inductive Asm where
  | parity (val : Word32) | encw (val : Word32) | chk (val : Word32) | decw (val : Word32)
  | encode (data : Buffer) | decode (data : Buffer) | interleave (data : Buffer) | deinterleave (data : Buffer)
  | build (ptype : Byte) (data : Buffer) | parse (data : Buffer)
  | send (data : Buffer) (addr : Addr) | close | bind (addr : Addr)
  | rdreg (reg : RegName) | wrreg (reg : RegName) (val : Word32)
  | rx (data : Buffer) (addr : Addr) | tick | txerr (val : Word32) | listening
  -- pseudo-instructions (R101)
  | buildData (data : Buffer) | buildAck | ticks (n : Nat) | clrErr | setMode (m : Bool) | setTimeout (n : Word32)
deriving DecidableEq, Repr

/-- The operation records an assembly line stands for (30_encoding.md R100, R101). -/
def Asm.ops : Asm → List Op
  | .parity v => [{ w := Sys2Proof.encode .parity, val := v }]
  | .encw v => [{ w := Sys2Proof.encode .encw, val := v }]
  | .chk v => [{ w := Sys2Proof.encode .chk, val := v }]
  | .decw v => [{ w := Sys2Proof.encode .decw, val := v }]
  | .encode b => [{ w := Sys2Proof.encode .encode, data := b }]
  | .decode b => [{ w := Sys2Proof.encode .decode, data := b }]
  | .interleave b => [{ w := Sys2Proof.encode .interleave, data := b }]
  | .deinterleave b => [{ w := Sys2Proof.encode .deinterleave, data := b }]
  | .build t b => [{ w := Sys2Proof.encode (.build t), data := b }]
  | .parse b => [{ w := Sys2Proof.encode .parse, data := b }]
  | .send b a => [{ w := Sys2Proof.encode .send, data := b, addr := a }]
  | .close => [{ w := Sys2Proof.encode .close }]
  | .bind a => [{ w := Sys2Proof.encode .bind, addr := a }]
  | .rdreg r => [{ w := Sys2Proof.encode (.rdreg r.number) }]
  | .wrreg r v => [{ w := Sys2Proof.encode (.wrreg r.number), val := v }]
  | .rx b a => [{ w := Sys2Proof.encode .rx, data := b, addr := a }]
  | .tick => [{ w := Sys2Proof.encode .tick }]
  | .txerr v => [{ w := Sys2Proof.encode .txerr, val := v }]
  | .listening => [{ w := Sys2Proof.encode .listening }]
  | .buildData b => [{ w := Sys2Proof.encode (.build 1#8), data := b }]
  | .buildAck => [{ w := Sys2Proof.encode (.build 2#8) }]
  | .ticks n => List.replicate n { w := Sys2Proof.encode .tick }
  | .clrErr => [{ w := Sys2Proof.encode (.wrreg 3) }]
  | .setMode m => [{ w := Sys2Proof.encode (.wrreg 0), val := (BitVec.ofBool m).setWidth 32 }]
  | .setTimeout n => [{ w := Sys2Proof.encode (.wrreg 1), val := n }]

/-- The input stream of an assembly program, each operation on the port 30_encoding.md R93 gives it (R98). -/
def assemble (lines : List Asm) : List Input :=
  (lines.flatMap Asm.ops).map fun op => .op (portOfWord op.w) op

end Sys2Proof.Machine
end

