-- ==== Sys2Proof/Safety.lean ====
section
/-!
DEFINITION. The terms the claims use: the legal session states (10_state.md R44), how an operation's outcome is written
out in full, runs without a reset, and the maps of ports and addresses.
-/

namespace Sys2Proof.Machine

open Sys2Proof

/-- The six invariants of 10_state.md R44. -/
abbrev St.Legal (st : St) : Prop :=
  (st.fsm = .awaitingAck ↔ st.pending ≠ none) ∧
  (st.fsm = .awaitingAck ↔ st.target ≠ none) ∧
  (st.fsm = .awaitingAck ↔ st.timerActive = true) ∧
  (st.timerActive = true → 1#32 ≤ st.timerCount ∧ st.timerCount ≤ st.sessInterval ∧ 1#32 ≤ st.sessInterval) ∧
  (st.timerActive = false → st.timerCount = 0#32) ∧
  1#32 ≤ st.cfgTimeout

/-- A machine whose session state satisfies 10_state.md R44. -/
abbrev State.Legal (s : State) : Prop := s.st.Legal

/-- The machine after an operation: the architectural state is `st`, the response `resp`, the events `outs`; the
operation record, what is still presented and the build parameter are as they were (00_scope.md R3). -/
def State.after (s : State) (st : St) (resp : Resp) (outs : List Event) : State :=
  { st := st, inputs := s.inputs, op := s.op, resp := some resp, outs := outs, wire := s.wire ++ outs,
    maxBufLen := s.maxBufLen }

/-- The architectural state with only `last_err` changed (60_exceptions.md R272). -/
def St.withError (st : St) (x : Status) : St := { st with lastErr := x }

/-- The machine after an operation that raised `x`: nothing but `last_err` changed, every response field but the status
at its default, nothing emitted (00_scope.md R13, 60_exceptions.md R272). -/
def State.afterRaise (s : State) (x : Status) : State := s.after (s.st.withError x) { status := x } []

/-- The operand buffer is no longer than `MAX_BUF_LEN` (00_scope.md R8). -/
abbrev State.fits (s : State) : Prop := ∀ m ∈ s.maxBufLen, s.op.data.length ≤ m

/-- Bit index `n` of a buffer: bit `n mod 8` of byte `n div 8`; 0 beyond the end (00_scope.md R10, 20_memory.md R71). -/
def bitOf (b : Buffer) (n : Nat) : Bool := (b.getD (n / 8) 0#8).getLsbD (n % 8)

/-- The word `w` is the operation `i`, and every other word with its opcode is illegal (30_encoding.md R93, R95). -/
abbrev SoleWord (w : Word16) (i : Instr) : Prop :=
  decode w = some i ∧ ∀ v : Word16, v.toNat / 256 = w.toNat / 256 → v ≠ w → decode v = none

/-- No 16-byte block of the two buffers differs in more than one byte. -/
def OneBadBytePerBlock (r r' : Buffer) : Prop :=
  r'.length = r.length ∧
  ∀ blk j k, j < 16 → k < 16 → r'[16 * blk + j]? ≠ r[16 * blk + j]? → r'[16 * blk + k]? ≠ r[16 * blk + k]? → j = k

/-- `n` steps of the machine behind Host/Core.lean. -/
def run (n : Nat) (s : State) : Result := Host.Core.run Sys2Proof.core n s

/-- No reset event is presented. -/
abbrev State.noResetAhead (s : State) : Prop := ∀ x ∈ s.inputs, x ≠ Input.reset

/-- A number of TICK operations on the timebase port (30_encoding.md R101). -/
def tickInputs (n : Nat) : List Input := assemble [.ticks n]

/-- A packet with a correct digest around `[t, PaddingSize(len(msg))] ++ msg`, as transmitted in a mode; for types 1
and 2 it is what `BuildRaw` makes (43_framer.md R172, R173). -/
def sealedPacket (t : Byte) (msg : Buffer) (mode : Bool) : Buffer :=
  transmitted (sealContent Config.digest (packetContent t msg)) mode

/-- How many `TX` events a list holds. -/
def txEvents (outs : List Event) : Nat := outs.countP fun e => match e with | .tx _ _ => true | _ => false

/-- How many `DELIVER` events a list holds. -/
def deliverEvents (outs : List Event) : Nat := outs.countP fun e => match e with | .deliver _ _ => true | _ => false

/-- The same item on another port. -/
def Input.onPort (f : Port → Port) : Input → Input
  | .op port op => .op (f port) op
  | .reset => .reset

/-- The same machine, everything still presented having arrived on other ports. -/
def State.onPorts (f : Port → Port) (s : State) : State := { s with inputs := s.inputs.map (Input.onPort f) }

/-- The same item with its address renamed. -/
def Input.renamed (f : Addr → Addr) : Input → Input
  | .op port op => .op port { op with addr := f op.addr }
  | .reset => .reset

/-- The same event with its address renamed. -/
def Event.renamed (f : Addr → Addr) : Event → Event
  | .tx bytes addr => .tx bytes (f addr)
  | .tBind addr => .tBind (f addr)
  | .tClose => .tClose
  | .deliver bytes addr => .deliver bytes (f addr)
  | .error code val => .error code val
  | .listeningOut => .listeningOut

/-- The same machine with every address renamed. -/
def State.renamed (f : Addr → Addr) (s : State) : State :=
  { s with
    st := { s.st with target := s.st.target.map f }
    inputs := s.inputs.map (Input.renamed f)
    op := { s.op with addr := f s.op.addr }
    outs := s.outs.map (Event.renamed f)
    wire := s.wire.map (Event.renamed f) }

/-- A map of states carried to outcomes: a stop is the same stop. -/
def mapNext (f : State → State) : Result → Result
  | .next s => .next (f s)
  | .fault r => .fault r
  | .refused r => .refused r

end Sys2Proof.Machine
end

