-- ==== Sys2Proof/Certificates/Slice0/Obligations.lean ====
section
/-!
DEFINITION. The statements for the provers. Each docstring names the rule of spec/ a statement formalises; what the
statement says in words is in OBLIGATIONS.json.
-/

open Sys2Proof Sys2Proof.Machine

/-- Decoding and encoding agree on every word and every well-formed operation. Round trip in both directions over all
words and all operations (30_encoding.md R91 to R95, R99). -/
def Obligations.DecodeAndEncodeAgree : Prop :=
  ∀ (w : Word16) (i : Instr), decode w = some i ↔ (i.wellFormed = true ∧ Sys2Proof.encode i = w)

/-- Words written out from the opcode map decode to their operations. Sanity of the decoder against 30_encoding.md R93
and 95_test_vectors.md 2.7. -/
def Obligations.SpecWordsDecode : Prop :=
  decode 0x0100#16 = some .parity ∧ decode 0x0200#16 = some .encw ∧ decode 0x0300#16 = some .chk ∧
  decode 0x0400#16 = some .decw ∧ decode 0x0500#16 = some .encode ∧ decode 0x0600#16 = some .decode ∧
  decode 0x0700#16 = some .interleave ∧ decode 0x0800#16 = some .deinterleave ∧
  decode 0x0900#16 = some (.build 0x00#8) ∧ decode 0x09FF#16 = some (.build 0xFF#8) ∧
  decode 0x0A00#16 = some .parse ∧ decode 0x1000#16 = some .send ∧ decode 0x1100#16 = some .close ∧
  decode 0x1200#16 = some .bind ∧ decode 0x1800#16 = some (.rdreg 0) ∧ decode 0x180F#16 = some (.rdreg 15) ∧
  decode 0x1900#16 = some (.wrreg 0) ∧ decode 0x190F#16 = some (.wrreg 15) ∧ decode 0x2000#16 = some .rx ∧
  decode 0x2100#16 = some .tick ∧ decode 0x2200#16 = some .txerr ∧ decode 0x2300#16 = some .listening ∧
  [0x0000#16, 0x0101#16, 0x0BFF#16, 0x0F00#16, 0x1300#16, 0x1810#16, 0x19F3#16, 0x2101#16, 0xFFFF#16].all
    (fun w => (decode w).isNone) = true

/-- A step runs the operation its input decodes to, on that input's operands. How the per-operation statements reach a
run (00_scope.md R3, 30_encoding.md R98, R99). -/
def Obligations.StepRunsTheDecodedOperation : Prop :=
  ∀ (s : State) (port : Port) (op : Op) (rest : List Input) (i : Instr),
    s.inputs = .op port op :: rest → decode op.w = some i →
    step s = exec i { s with op := op, inputs := rest }

/-- Every unassigned opcode raises IllegalOpcode and changes nothing but last_err. 30_encoding.md R94. -/
def Obligations.IllegalOpcodeRaisesAndChangesOnlyLastErr : Prop :=
  (∀ (s : State) (port : Port) (op : Op) (rest : List Input),
    s.inputs = .op port op :: rest →
    (op.w.toNat / 256 = 0x00 ∨ (0x0B ≤ op.w.toNat / 256 ∧ op.w.toNat / 256 ≤ 0x0F) ∨
      (0x13 ≤ op.w.toNat / 256 ∧ op.w.toNat / 256 ≤ 0x17) ∨ (0x1A ≤ op.w.toNat / 256 ∧ op.w.toNat / 256 ≤ 0x1F) ∨
      0x24 ≤ op.w.toNat / 256) →
    step s = .next ({ s with op := op, inputs := rest }.afterRaise .illegalOpcode)) ∧
  ∀ w : Word16, w.toNat % 256 = 0 →
    ((decode w).isNone = true ↔
      (w.toNat / 256 = 0x00 ∨ (0x0B ≤ w.toNat / 256 ∧ w.toNat / 256 ≤ 0x0F) ∨
        (0x13 ≤ w.toNat / 256 ∧ w.toNat / 256 ≤ 0x17) ∨ (0x1A ≤ w.toNat / 256 ∧ w.toNat / 256 ≤ 0x1F) ∨
        0x24 ≤ w.toNat / 256))

/-- Reserved immediate bits raise IllegalOpcode; the legal words are exactly the 304 listed. 30_encoding.md R95. -/
def Obligations.ReservedImmediateBitsRaiseAndExactly304WordsAreLegal : Prop :=
  (∀ (s : State) (port : Port) (op : Op) (rest : List Input),
    s.inputs = .op port op :: rest →
    ((op.w.toNat / 256 ∈ [0x01, 0x02, 0x03, 0x04, 0x05, 0x06, 0x07, 0x08, 0x0A, 0x10, 0x11, 0x12, 0x20, 0x21, 0x22, 0x23] ∧
        op.w.toNat % 256 ≠ 0) ∨
      (op.w.toNat / 256 ∈ [0x18, 0x19] ∧ op.w.toNat % 256 / 16 ≠ 0)) →
    step s = .next ({ s with op := op, inputs := rest }.afterRaise .illegalOpcode)) ∧
  (∀ w : Word16, (decode w).isSome = true ↔
    (w ∈ [0x0100#16, 0x0200#16, 0x0300#16, 0x0400#16, 0x0500#16, 0x0600#16, 0x0700#16, 0x0800#16, 0x0A00#16, 0x1000#16,
        0x1100#16, 0x1200#16, 0x2000#16, 0x2100#16, 0x2200#16, 0x2300#16] ∨
      (0x0900#16 ≤ w ∧ w ≤ 0x09FF#16) ∨ (0x1800#16 ≤ w ∧ w ≤ 0x180F#16) ∨ (0x1900#16 ≤ w ∧ w ≤ 0x190F#16))) ∧
  ∃ l : List Word16, l.Nodup ∧ l.length = 304 ∧ ∀ w, w ∈ l ↔ (decode w).isSome = true

/-- With nothing presented a step leaves the machine as it is (log entry 9). The model's choice
(notes/assumptions/9.md), from 60_exceptions.md R286. -/
def Obligations.NothingPresentedHoldsAllState : Prop :=
  ∀ s : State, s.inputs = [] → step s = .next s

/-- The reset state and the reset event give every element its reset value (log entry 10). The values are those of
10_state.md R58; no response and no event is 70_reset_and_hazards.md R310; the parameter stays by R311 and the
transport is left alone by R312. That the reset is an input item, and that what is still presented and the events
already emitted stay, is the model's choice (notes/assumptions/10.md). -/
def Obligations.ResetRestoresEveryElement : Prop :=
  (State.reset.st =
    { fsm := .idle, pending := none, target := none, timerActive := false, timerCount := 0#32, sessInterval := 0#32,
      cfgMode := false, cfgTimeout := 1000#32, lastErr := .ok, cntTx := 0#32, cntRetx := 0#32, cntDeliver := 0#32,
      cntDrop := 0#32 }) ∧
  ∀ (s : State) (rest : List Input), s.inputs = .reset :: rest →
    step s = .next
      { s with
        st :=
          { fsm := .idle, pending := none, target := none, timerActive := false, timerCount := 0#32,
            sessInterval := 0#32, cfgMode := false, cfgTimeout := 1000#32, lastErr := .ok, cntTx := 0#32,
            cntRetx := 0#32, cntDeliver := 0#32, cntDrop := 0#32 }
        inputs := rest
        resp := none
        outs := [] }

/-- A scalar operand with bits above its range raises InvalidArgument. 41_hamming.md R117. -/
def Obligations.WordOperandsOutOfRangeAreRefused : Prop :=
  ∀ s : State,
    (65536 ≤ s.op.val.toNat →
      ∀ i ∈ [Instr.parity, Instr.chk, Instr.decw], exec i s = .next (s.afterRaise .invalidArgument)) ∧
    (2048 ≤ s.op.val.toNat → exec .encw s = .next (s.afterRaise .invalidArgument))

/-- PARITY returns the four syndrome bits and the overall parity bit of the data positions. 41_hamming.md R111, R118:
completion and result, written out bit by bit. -/
def Obligations.ParityReturnsSyndromeAndOverallParity : Prop :=
  ∀ s : State, s.op.val.toNat < 65536 →
    ∃ v : Word32, exec .parity s = .next (s.after s.st { val := v } []) ∧
      (v.getLsbD 1 = (s.op.val.getLsbD 3 ^^ s.op.val.getLsbD 5 ^^ s.op.val.getLsbD 7 ^^ s.op.val.getLsbD 9 ^^
        s.op.val.getLsbD 11 ^^ s.op.val.getLsbD 13 ^^ s.op.val.getLsbD 15)) ∧
      (v.getLsbD 2 = (s.op.val.getLsbD 3 ^^ s.op.val.getLsbD 6 ^^ s.op.val.getLsbD 7 ^^ s.op.val.getLsbD 10 ^^
        s.op.val.getLsbD 11 ^^ s.op.val.getLsbD 14 ^^ s.op.val.getLsbD 15)) ∧
      (v.getLsbD 4 = (s.op.val.getLsbD 5 ^^ s.op.val.getLsbD 6 ^^ s.op.val.getLsbD 7 ^^ s.op.val.getLsbD 12 ^^
        s.op.val.getLsbD 13 ^^ s.op.val.getLsbD 14 ^^ s.op.val.getLsbD 15)) ∧
      (v.getLsbD 8 = (s.op.val.getLsbD 9 ^^ s.op.val.getLsbD 10 ^^ s.op.val.getLsbD 11 ^^ s.op.val.getLsbD 12 ^^
        s.op.val.getLsbD 13 ^^ s.op.val.getLsbD 14 ^^ s.op.val.getLsbD 15)) ∧
      (v.getLsbD 0 = (s.op.val.getLsbD 3 ^^ s.op.val.getLsbD 5 ^^ s.op.val.getLsbD 6 ^^ s.op.val.getLsbD 7 ^^
        s.op.val.getLsbD 9 ^^ s.op.val.getLsbD 10 ^^ s.op.val.getLsbD 11 ^^ s.op.val.getLsbD 12 ^^
        s.op.val.getLsbD 13 ^^ s.op.val.getLsbD 14 ^^ s.op.val.getLsbD 15 ^^
        v.getLsbD 1 ^^ v.getLsbD 2 ^^ v.getLsbD 4 ^^ v.getLsbD 8)) ∧
      ∀ j, j ∉ [0, 1, 2, 4, 8] → v.getLsbD j = false

/-- ENCW places the 11 data bits and makes every parity check even. 41_hamming.md R110, R113, R119: these equations
fix the codeword. -/
def Obligations.EncwReturnsTheCodewordOfItsOperand : Prop :=
  (∀ (s : State) (d : Data11), s.op.val = d.setWidth 32 →
    ∃ w : Word16, exec .encw s = .next (s.after s.st { val := w.setWidth 32 } []) ∧
      (∀ k p, [3, 5, 6, 7, 9, 10, 11, 12, 13, 14, 15][k]? = some p → w.getLsbD p = d.getLsbD k) ∧
      (∀ i < 4, ((List.range 16).filter fun p => p.testBit i && w.getLsbD p).length % 2 = 0) ∧
      ((List.range 16).filter fun p => w.getLsbD p).length % 2 = 0) ∧
  ∀ d e : Data11, encWord d = encWord e → d = e

/-- CHK decides by the XOR of the set positions and the number of set bits. 41_hamming.md R112 through the operation
of R120. -/
def Obligations.ChkFollowsSyndromeAndOverallParity : Prop :=
  ∀ (s : State) (w : Word16), s.op.val = w.setWidth 32 →
    (((List.range 16).filter w.getLsbD).length % 2 = 0 → ((List.range 16).filter w.getLsbD).foldl (· ^^^ ·) 0 ≠ 0 →
      exec .chk s = .next (s.after (s.st.withError .codecUncorrectable)
        { status := .codecUncorrectable, unrec := true, val := w.setWidth 32 } [])) ∧
    (((List.range 16).filter w.getLsbD).length % 2 = 1 →
      exec .chk s = .next (s.after s.st
        { val := (w ^^^ (1#16 <<< ((List.range 16).filter w.getLsbD).foldl (· ^^^ ·) 0)).setWidth 32 } [])) ∧
    (((List.range 16).filter w.getLsbD).length % 2 = 0 → ((List.range 16).filter w.getLsbD).foldl (· ^^^ ·) 0 = 0 →
      exec .chk s = .next (s.after s.st { val := w.setWidth 32 } []))

/-- CHK and DECW restore every codeword with at most one flipped bit. The spec derives this from its rules
(41_hamming.md R124, points 1 and 2: "CheckAndCorrect(EncWord(d)) = (0, EncWord(d))"; and the bit-flip property it
quotes). -/
def Obligations.SingleBitErrorsAreCorrected : Prop :=
  ∀ (s : State) (d : Data11),
    (s.op.val = (encWord d).setWidth 32 ∨ ∃ p < 16, s.op.val = (encWord d ^^^ (1#16 <<< p)).setWidth 32) →
    exec .chk s = .next (s.after s.st { val := (encWord d).setWidth 32 } []) ∧
    exec .decw s = .next (s.after s.st { val := d.setWidth 32 } [])

/-- CHK reports every codeword with two flipped bits as unrecoverable, unmodified. The spec derives this from its
rules (41_hamming.md R124, point 3: "Two distinct positions a ≠ b give syn = a XOR b ≠ 0 and even parity"). -/
def Obligations.DoubleBitErrorsAreDetected : Prop :=
  ∀ (s : State) (d : Data11) (a b : Nat), a < 16 → b < 16 → a ≠ b →
    s.op.val = (encWord d ^^^ (1#16 <<< a) ^^^ (1#16 <<< b)).setWidth 32 →
    exec .chk s = .next (s.after (s.st.withError .codecUncorrectable)
      { status := .codecUncorrectable, unrec := true,
        val := (encWord d ^^^ (1#16 <<< a) ^^^ (1#16 <<< b)).setWidth 32 } [])

/-- DECW is CHK followed by extraction of the data positions. 41_hamming.md R114, R120, R121. -/
def Obligations.DecwExtractsTheDataBitsOfTheCheckedWord : Prop :=
  ∀ (s : State) (w : Word16), s.op.val = w.setWidth 32 →
    ∃ (r : Resp) (v : Word32),
      r = { status := r.status, unrec := r.unrec, val := r.val } ∧
      (r.status = if r.unrec then .codecUncorrectable else .ok) ∧
      exec .chk s = .next (s.after (if r.unrec then s.st.withError .codecUncorrectable else s.st) r []) ∧
      exec .decw s = .next
        (s.after (if r.unrec then s.st.withError .codecUncorrectable else s.st) { r with val := v } []) ∧
      (∀ k p, [3, 5, 6, 7, 9, 10, 11, 12, 13, 14, 15][k]? = some p → v.getLsbD k = r.val.getLsbD p) ∧ v.toNat < 2048

/-- BitsOf has 8 bits a byte, and bit n is bit n mod 8 of byte n div 8. 20_memory.md R71. -/
def Obligations.BitsOfReadsLeastSignificantBitFirst : Prop :=
  ∀ b : Buffer, (bitsOf b).length = 8 * b.length ∧
    ∀ n (h : n < 8 * b.length), (bitsOf b)[n]? = some ((b[n / 8]'(by omega)).getLsbD (n % 8))

/-- BitsToBuffer puts bit i at byte i div 8, position i mod 8, zero-fills, and inverts BitsOf. 20_memory.md R72; the
spec derives the last clause there ("BitsToBuffer(BitsOf(b)) = b for every buffer b", from R71 and R72). -/
def Obligations.BitsToBufferPacksAndInvertsBitsOf : Prop :=
  (∀ s : List Bool, (bitsToBuffer s).length = (s.length + 7) / 8 ∧
    ∀ i, bitOf (bitsToBuffer s) i = s.getD i false) ∧
  ∀ b : Buffer, bitsToBuffer (bitsOf b) = b

/-- ENCODE turns every 11 data bits into one little-endian codeword, chunk by chunk. 41_hamming.md R115 (with
20_memory.md R73): the codeword and its data bits fix every output bit. -/
def Obligations.EncodePlacesEveryDataBitInItsCodeword : Prop :=
  ∀ s : State, s.fits →
    ∃ out : Buffer, exec .encode s = .next (s.after s.st { data := out } []) ∧
      out.length = 16 * ((s.op.data.length + 10) / 11) ∧
      ∀ c k, c < (s.op.data.length + 10) / 11 → k < 8 →
        (∃ d : Data11, readWordLE out (16 * c + 2 * k) = encWord d) ∧
        ∀ i p, [3, 5, 6, 7, 9, 10, 11, 12, 13, 14, 15][i]? = some p →
          bitOf out (128 * c + 16 * k + p) = bitOf s.op.data (88 * c + 11 * k + i)

/-- DECODE refuses misaligned buffers and otherwise returns the data bits of every checked word. 41_hamming.md R116
through the operation of R123. -/
def Obligations.DecodeChecksEveryWordAndKeepsBestEffort : Prop :=
  ∀ s : State, s.fits →
    (s.op.data.length % 16 ≠ 0 → exec .decode s = .next (s.afterRaise .framingError)) ∧
    (s.op.data.length % 16 = 0 →
      ∃ out : Buffer, out.length = 11 * (s.op.data.length / 16) ∧
        (∀ c k, c < s.op.data.length / 16 → k < 8 → ∀ i p, [3, 5, 6, 7, 9, 10, 11, 12, 13, 14, 15][i]? = some p →
          bitOf out (88 * c + 11 * k + i) =
            (checkAndCorrect (readWordLE s.op.data (16 * c + 2 * k))).word.getLsbD p) ∧
        ((∀ c k, c < s.op.data.length / 16 → k < 8 →
            (checkAndCorrect (readWordLE s.op.data (16 * c + 2 * k))).unrec = false) →
          exec .decode s = .next (s.after s.st { valid := true, data := out } [])) ∧
        ((∃ c k, c < s.op.data.length / 16 ∧ k < 8 ∧
            (checkAndCorrect (readWordLE s.op.data (16 * c + 2 * k))).unrec = true) →
          exec .decode s = .next (s.after (s.st.withError .codecUncorrectable)
            { status := .codecUncorrectable, data := out } [])))

/-- Decoding an encoded buffer of any length gives the buffer back, zero-padded to whole chunks. The spec derives this
from its rules (41_hamming.md R124, point 4, "round-trip identity, B zero-padded to next 11-byte boundary"). -/
def Obligations.DecodeInvertsEncode : Prop :=
  ∀ s : State, s.fits →
    ∃ coded : Buffer, exec .encode s = .next (s.after s.st { data := coded } []) ∧
      ∀ u : State, u.op.data = coded → u.fits →
        exec .decode u = .next (u.after u.st
          { valid := true,
            data := s.op.data ++ zeros (11 * ((s.op.data.length + 10) / 11) - s.op.data.length) } [])

/-- INTERLEAVE moves stream bit i to byte i mod 16, bit (i div 16) mod 8, of its block. 42_interleaver.md R150. -/
def Obligations.InterleaveMovesBitJOfWordWToByteJ : Prop :=
  ∀ s : State, s.fits →
    (s.op.data.length % 16 ≠ 0 → exec .interleave s = .next (s.afterRaise .framingError)) ∧
    (s.op.data.length % 16 = 0 →
      ∃ out : Buffer, exec .interleave s = .next (s.after s.st { data := out } []) ∧
        out.length = s.op.data.length ∧
        ∀ blk i, blk < s.op.data.length / 16 → i < 128 →
          bitOf out (8 * (16 * blk + i % 16) + i / 16 % 8) = bitOf s.op.data (128 * blk + i))

/-- DEINTERLEAVE reads stream bit i from byte i mod 16, bit i div 16, of its block. 42_interleaver.md R151. -/
def Obligations.DeinterleaveReadsBitIFromByteIMod16 : Prop :=
  ∀ s : State, s.fits →
    (s.op.data.length % 16 ≠ 0 → exec .deinterleave s = .next (s.afterRaise .framingError)) ∧
    (s.op.data.length % 16 = 0 →
      ∃ out : Buffer, exec .deinterleave s = .next (s.after s.st { data := out } []) ∧
        out.length = s.op.data.length ∧
        ∀ blk i, blk < s.op.data.length / 16 → i < 128 →
          bitOf out (128 * blk + i) = bitOf s.op.data (8 * (16 * blk + i % 16) + i / 16))

/-- The two interleaver directions invert each other, keep length and work block by block. The spec derives this from
its rules (42_interleaver.md R152, "Both functions preserve length and act on each super-block independently"). -/
def Obligations.InterleaverDirectionsAreInverse : Prop :=
  ∀ b : Buffer, b.length % 16 = 0 →
    (∃ x, interleave b = some x ∧ x.length = b.length ∧ deinterleave x = some b) ∧
    (∃ y, deinterleave b = some y ∧ y.length = b.length ∧ interleave y = some b) ∧
    ∀ a : Buffer, a.length = 16 →
      interleave (a ++ b) = (interleave a).bind (fun x => (interleave b).map fun y => x ++ y) ∧
      deinterleave (a ++ b) = (deinterleave a).bind (fun x => (deinterleave b).map fun y => x ++ y)

/-- One replaced byte in each interleaved block is always corrected. The spec derives this from its rules
(42_interleaver.md R153, "one corrupted byte per super-block is always corrected"). -/
def Obligations.OneBadBytePerInterleavedBlockIsCorrected : Prop :=
  ∀ (b r : Buffer) (s : State), interleave (encodeBuffer b) = some r → OneBadBytePerBlock r s.op.data → s.fits →
    ∃ coded : Buffer, exec .deinterleave s = .next (s.after s.st { data := coded } []) ∧
      ∀ u : State, u.op.data = coded → u.fits →
        exec .decode u = .next (u.after u.st
          { valid := true, data := b ++ zeros (11 * ((b.length + 10) / 11) - b.length) } [])

/-- A buffer longer than MAX_BUF_LEN raises Oversize; RX drops it and counts it. 30_encoding.md R99 point 4;
44_socket.md R205. -/
def Obligations.OversizeBuffersAreRefusedOrDropped : Prop :=
  ∀ s : State, ¬ s.fits →
    (∀ i ∈ [Instr.encode, .decode, .interleave, .deinterleave, .parse], exec i s = .next (s.afterRaise .oversize)) ∧
    (∀ t : Byte, exec (.build t) s = .next (s.afterRaise .oversize)) ∧
    (s.st.fsm = .idle → exec .send s = .next (s.afterRaise .oversize)) ∧
    (s.st.fsm ≠ .closed →
      exec .rx s = .next (s.after { s.st with cntDrop := s.st.cntDrop + 1#32, lastErr := .oversize }
        { status := .oversize } []))

/-- PaddingSize is the number of zero bytes the encoder adds to the framed buffer. 43_framer.md R171. -/
def Obligations.PaddingFillsTheLastChunk : Prop :=
  (∀ m : Nat, paddingSize m ≤ 10 ∧ paddingSize m = (11 - (18 + m) % 11) % 11 ∧ (18 + m + paddingSize m) % 11 = 0 ∧
    18 + m + paddingSize m = 11 * ((18 + m + 10) / 11)) ∧
  (List.range 12).map paddingSize = [4, 3, 2, 1, 0, 10, 9, 8, 7, 6, 5, 4] ∧ paddingSize 23 = 3

/-- BUILD of type 1 or 2 returns the framed, encoded and, in mode 1, interleaved packet. 43_framer.md R172, R173
through the operation of R178. -/
def Obligations.BuildFramesEncodesAndInterleaves : Prop :=
  ∀ (s : State) (t : Byte), s.fits →
    ((t = 1#8 ∨ t = 2#8) →
      ∃ msg content framed raw : Buffer,
        msg = (if t = 1#8 then s.op.data else []) ∧
        content = t :: BitVec.ofNat 8 (paddingSize msg.length) :: msg ∧
        framed = (Config.digest content).toList ++ content ∧
        exec (.build t) s = .next (s.after s.st { data := raw } []) ∧
        (s.st.cfgMode = false → raw = encodeBuffer framed) ∧
        (s.st.cfgMode = true → interleave (encodeBuffer framed) = some raw) ∧
        raw.length = 16 * ((18 + msg.length + 10) / 11)) ∧
    (t ≠ 1#8 → t ≠ 2#8 → exec (.build t) s = .next (s.afterRaise .protocolError))

/-- PARSE of a packet BUILD made, in the same mode, gives its type, padding and message back. The spec derives this
from its rules (43_framer.md R180). -/
def Obligations.BuiltPacketsParseBack : Prop :=
  ∀ (s : State) (t : Byte), s.fits → (t = 1#8 ∨ t = 2#8) →
    ∃ raw : Buffer, exec (.build t) s = .next (s.after s.st { data := raw } []) ∧
      ∀ u : State, u.op.data = raw → u.st.cfgMode = s.st.cfgMode → u.fits →
        exec .parse u = .next (u.after u.st
          { valid := true, hvalid := true, dmatch := true, ptype := t,
            pad := BitVec.ofNat 8 (paddingSize (if t = 1#8 then s.op.data.length else 0)),
            data := if t = 1#8 then s.op.data else [] } [])

/-- PARSE fails fast on bad lengths, cuts the packet into fields, checks the digest, ranks failures. 43_framer.md
R174, R175, R176 through the operation of R179; 90_conflicts.md C4. -/
def Obligations.ParseReportsFieldsAndEarliestFailure : Prop :=
  (∀ s : State, s.fits → (s.op.data.length < 18 ∨ s.op.data.length % 16 ≠ 0) →
    exec .parse s = .next (s.afterRaise .framingError)) ∧
  ∀ (s : State) (coded dec msg : Buffer) (hv dm : Bool) (pad last : Nat), s.fits →
    32 ≤ s.op.data.length → s.op.data.length % 16 = 0 →
    (s.st.cfgMode = false → coded = s.op.data) → (s.st.cfgMode = true → deinterleave s.op.data = some coded) →
    dec = (decodeBuffer coded).data → hv = (decodeBuffer coded).valid →
    pad = (dec.getD 17 0#8).toNat → last = max 18 (dec.length - pad) → msg = (dec.take last).drop 18 →
    (dm = true ↔ (Config.digest ((dec.take last).drop 16)).toList = dec.take 16) →
    exec .parse s = .next (s.after
      (if hv && dm then s.st else if hv then s.st.withError .integrityMismatch else s.st.withError .codecUncorrectable)
      { status := if hv && dm then .ok else if hv then .integrityMismatch else .codecUncorrectable
        valid := hv && dm
        hvalid := hv
        dmatch := dm
        ptype := dec.getD 16 0#8
        pad := dec.getD 17 0#8
        data := msg } [])

/-- A packet whose digest field is not its content's digest is rejected whatever DIGEST is. The spec derives this from
its rules (43_framer.md R181, "so dmatch = 0 and valid = 0, whatever DIGEST is"). -/
def Obligations.WrongDigestIsAnIntegrityMismatch : Prop :=
  ∀ (s : State) (t : Byte) (msg : Buffer) (h : Vector Byte 16), h ≠ Config.digest (packetContent t msg) →
    s.op.data = transmitted (h.toList ++ packetContent t msg) s.st.cfgMode → s.fits →
    exec .parse s = .next (s.after (s.st.withError .integrityMismatch)
      { status := .integrityMismatch, hvalid := true, ptype := t, pad := BitVec.ofNat 8 (paddingSize msg.length),
        data := msg } []) ∧
    (s.st.fsm ≠ .closed →
      exec .rx s = .next (s.after { s.st with cntDrop := s.st.cntDrop + 1#32, lastErr := .integrityMismatch }
        { status := .integrityMismatch, hvalid := true, ptype := t, pad := BitVec.ofNat 8 (paddingSize msg.length) } []))

/-- SEND in Idle transmits, stores the packet and arms the timer; elsewhere it is refused. 44_socket.md R202. -/
def Obligations.SendTransmitsStoresAndArms : Prop :=
  SoleWord 0x1000#16 .send ∧
  ∀ s : State,
    (s.st.fsm = .idle → s.fits →
      exec .send s = .next (s.after
        { s.st with
          fsm := .awaitingAck
          pending := some (buildRaw Config.digest .data s.op.data s.st.cfgMode)
          target := some s.op.addr
          timerActive := true
          timerCount := s.st.cfgTimeout
          sessInterval := s.st.cfgTimeout
          cntTx := s.st.cntTx + 1#32 }
        {} [.tx (buildRaw Config.digest .data s.op.data s.st.cfgMode) s.op.addr])) ∧
    (s.st.fsm ≠ .idle → exec .send s = .next (s.afterRaise .invalidState)) ∧
    (s.st.fsm = .idle → ¬ s.fits → exec .send s = .next (s.afterRaise .oversize))

/-- CLOSE disarms, emits T_CLOSE and goes to Closed; a second CLOSE does nothing. 44_socket.md R203 with Disarm of
R201. -/
def Obligations.CloseDisarmsAndReleasesTheTransport : Prop :=
  SoleWord 0x1100#16 .close ∧
  ∀ s : State,
    (s.st.fsm = .closed → exec .close s = .next (s.after s.st {} [])) ∧
    (s.st.fsm ≠ .closed →
      exec .close s = .next (s.after
        { s.st with fsm := .closed, timerActive := false, timerCount := 0#32, pending := none, target := none }
        {} [.tClose]))

/-- BIND emits T_BIND and LISTENING emits LISTENING_OUT, changing no state; not so in Closed. 44_socket.md R204, R210.
-/
def Obligations.BindAndListeningAreForwardedOutsideClosed : Prop :=
  SoleWord 0x1200#16 .bind ∧ SoleWord 0x2300#16 .listening ∧
  ∀ s : State,
    (s.st.fsm ≠ .closed →
      exec .bind s = .next (s.after s.st {} [.tBind s.op.addr]) ∧
      exec .listening s = .next (s.after s.st {} [.listeningOut])) ∧
    (s.st.fsm = .closed →
      exec .bind s = .next (s.afterRaise .invalidState) ∧ exec .listening s = .next (s.after s.st {} []))

/-- TXERR disarms, closes, emits T_CLOSE then ERROR, and reports TransportError. 44_socket.md R209. -/
def Obligations.TransportErrorClosesThenSurfaces : Prop :=
  SoleWord 0x2200#16 .txerr ∧
  ∀ s : State,
    (s.st.fsm = .closed → exec .txerr s = .next (s.after s.st {} [])) ∧
    (s.st.fsm ≠ .closed →
      exec .txerr s = .next (s.after
        { s.st with
          fsm := .closed, timerActive := false, timerCount := 0#32, pending := none, target := none,
          lastErr := .transportError }
        { status := .transportError } [.tClose, .error .transportError s.op.val]))

/-- TICK counts down; at 0 it retransmits the stored bytes and reloads. 44_socket.md R208, in the states 10_state.md
R44 allows. -/
def Obligations.TickCountsDownAndRetransmits : Prop :=
  SoleWord 0x2100#16 .tick ∧
  ∀ s : State,
    ((s.st.fsm = .closed ∨ s.st.timerActive = false) → exec .tick s = .next (s.after s.st {} [])) ∧
    (s.st.fsm ≠ .closed → s.st.timerActive = true → 2 ≤ s.st.timerCount.toNat →
      exec .tick s = .next (s.after { s.st with timerCount := s.st.timerCount - 1#32 } {} [])) ∧
    (s.st.fsm ≠ .closed → s.st.timerActive = true → s.st.timerCount = 1#32 →
      ∀ bytes addr, s.st.pending = some bytes → s.st.target = some addr →
      exec .tick s = .next (s.after
        { s.st with
          cntTx := s.st.cntTx + 1#32, cntRetx := s.st.cntRetx + 1#32, timerCount := s.st.sessInterval }
        {} [.tx bytes addr]))

/-- RX does nothing in Closed; elsewhere it drops what does not parse, counted and silent. 44_socket.md R205. -/
def Obligations.RxIsIgnoredInClosedAndDropsInvalidDatagrams : Prop :=
  ∀ s : State,
    (s.st.fsm = .closed → exec .rx s = .next (s.after s.st {} [])) ∧
    (s.st.fsm ≠ .closed → s.fits → ∀ r, r = parseRaw Config.digest s.op.data s.st.cfgMode → r.valid = false →
      (r.status = .framingError ∨ r.status = .codecUncorrectable ∨ r.status = .integrityMismatch) ∧
      exec .rx s = .next (s.after { s.st with cntDrop := s.st.cntDrop + 1#32, lastErr := r.status }
        { status := r.status, hvalid := r.hvalid, dmatch := r.dmatch, ptype := r.ptype, pad := r.pad } [])) ∧
    (s.st.fsm ≠ .closed → s.fits → (s.op.data.length < 18 ∨ s.op.data.length % 16 ≠ 0) →
      exec .rx s = .next (s.after { s.st with cntDrop := s.st.cntDrop + 1#32, lastErr := .framingError }
        { status := .framingError } []))

/-- RX of a Data packet of the same mode delivers its message and acknowledges it to the sender. 44_socket.md R207
with the round trip of 43_framer.md R180, which the spec derives. -/
def Obligations.RxDataDeliversThenAcknowledges : Prop :=
  ∀ (s : State) (msg : Buffer), s.st.fsm ≠ .closed → s.op.data = buildRaw Config.digest .data msg s.st.cfgMode →
    s.fits →
    exec .rx s = .next (s.after
      { s.st with cntDeliver := s.st.cntDeliver + 1#32, cntTx := s.st.cntTx + 1#32 }
      { valid := true, hvalid := true, dmatch := true, ptype := 1#8, pad := BitVec.ofNat 8 (paddingSize msg.length) }
      [.deliver msg s.op.addr, .tx (buildRaw Config.digest .ack [] s.st.cfgMode) s.op.addr])

/-- RX of an Acknowledgement, from any address, returns AwaitingAck to Idle and is ignored in Idle. 44_socket.md R206
with the round trip of 43_framer.md R180, which the spec derives. -/
def Obligations.RxAcknowledgementEndsTheOutstandingSend : Prop :=
  ∀ (s : State) (msg : Buffer), s.op.data = buildRaw Config.digest .ack msg s.st.cfgMode → s.fits →
    (s.st.fsm = .awaitingAck →
      exec .rx s = .next (s.after
        { s.st with fsm := .idle, timerActive := false, timerCount := 0#32, pending := none, target := none }
        { valid := true, hvalid := true, dmatch := true, ptype := 2#8, pad := 4#8 } [])) ∧
    (s.st.fsm = .idle →
      exec .rx s = .next (s.after s.st
        { valid := true, hvalid := true, dmatch := true, ptype := 2#8, pad := 4#8 } []))

/-- A well-sealed packet of a type other than 1 and 2 parses as valid, and RX drops it as UnknownType. 43_framer.md
R177, 44_socket.md R205. -/
def Obligations.ValidPacketsOfUnknownTypeParseButAreDropped : Prop :=
  ∀ (s : State) (t : Byte) (msg : Buffer), t ≠ 1#8 → t ≠ 2#8 → s.op.data = sealedPacket t msg s.st.cfgMode → s.fits →
    exec .parse s = .next (s.after s.st
      { valid := true, hvalid := true, dmatch := true, ptype := t, pad := BitVec.ofNat 8 (paddingSize msg.length),
        data := msg } []) ∧
    (s.st.fsm ≠ .closed →
      exec .rx s = .next (s.after { s.st with cntDrop := s.st.cntDrop + 1#32, lastErr := .unknownType }
        { status := .unknownType, valid := true, hvalid := true, dmatch := true, ptype := t,
          pad := BitVec.ofNat 8 (paddingSize msg.length) } []))

/-- In interleaved mode RX delivers a Data packet with one replaced byte in every block. The spec derives this from
its rules (42_interleaver.md R153; 95_test_vectors.md 2.8, mode 1). -/
def Obligations.InterleavedPacketSurvivesOneBadBytePerBlock : Prop :=
  ∀ (s : State) (msg : Buffer), s.st.fsm ≠ .closed → s.st.cfgMode = true →
    OneBadBytePerBlock (buildRaw Config.digest .data msg true) s.op.data → s.fits →
    exec .rx s = .next (s.after
      { s.st with cntDeliver := s.st.cntDeliver + 1#32, cntTx := s.st.cntTx + 1#32 }
      { valid := true, hvalid := true, dmatch := true, ptype := 1#8, pad := BitVec.ofNat 8 (paddingSize msg.length) }
      [.deliver msg s.op.addr, .tx (buildRaw Config.digest .ack [] true) s.op.addr])

/-- RDREG returns each register of the map and refuses the numbers that name none. 45_registers.md R250. -/
def Obligations.RdregReturnsTheRegisterMap : Prop :=
  (∀ w : Word16, w.toNat / 256 = 0x18 →
    decode w = if w.toNat % 256 < 16 then some (.rdreg (w.toNat % 256)) else none) ∧
  ∀ s : State,
    (∀ n v,
      [(if s.st.cfgMode then 1#32 else 0#32), s.st.cfgTimeout,
        BitVec.ofNat 32 ((if s.st.pending = none then 0 else 8) + (if s.st.timerActive then 4 else 0) +
          [Fsm.idle, .awaitingAck, .closed].idxOf s.st.fsm),
        BitVec.ofNat 32 ([Status.ok, .framingError, .codecUncorrectable, .integrityMismatch, .protocolError,
          .transportError, .invalidState, .illegalOpcode, .invalidArgument, .unknownType, .oversize].idxOf s.st.lastErr),
        s.st.timerCount, s.st.sessInterval, s.st.cntTx, s.st.cntRetx, s.st.cntDeliver, s.st.cntDrop][n]? = some v →
      exec (.rdreg n) s = .next (s.after s.st { val := v } [])) ∧
    ∀ n, 10 ≤ n → n < 16 → exec (.rdreg n) s = .next (s.afterRaise .invalidArgument)

/-- WRREG CTRL sets the mode in Idle; state check first, then the reserved bits. 45_registers.md R252. -/
def Obligations.CtrlWriteNeedsIdleAndZeroReservedBits : Prop :=
  ∀ s : State,
    (s.st.fsm ≠ .idle → exec (.wrreg 0) s = .next (s.afterRaise .invalidState)) ∧
    (s.st.fsm = .idle → 2 ≤ s.op.val.toNat → exec (.wrreg 0) s = .next (s.afterRaise .invalidArgument)) ∧
    (s.st.fsm = .idle → s.op.val = 0#32 → exec (.wrreg 0) s = .next (s.after { s.st with cfgMode := false } {} [])) ∧
    (s.st.fsm = .idle → s.op.val = 1#32 → exec (.wrreg 0) s = .next (s.after { s.st with cfgMode := true } {} []))

/-- WRREG TIMEOUT sets cfg_timeout in every state and refuses 0. 45_registers.md R253. -/
def Obligations.TimeoutWriteAffectsOnlyLaterSends : Prop :=
  ∀ s : State,
    (s.op.val = 0#32 → exec (.wrreg 1) s = .next (s.afterRaise .invalidArgument)) ∧
    (s.op.val ≠ 0#32 → exec (.wrreg 1) s = .next (s.after { s.st with cfgTimeout := s.op.val } {} [])) ∧
    ∀ (t : State) (op : Op), exec (.wrreg 1) s = .next t → s.op.val ≠ 0#32 → s.st.fsm = .idle →
      { t with op := op }.fits →
      ∃ u, exec .send { t with op := op } = .next u ∧ u.st.timerCount = s.op.val ∧ u.st.sessInterval = s.op.val

/-- WRREG LAST_ERR clears the code; read-only and absent registers refuse a write. 45_registers.md R251, R254; the
effects on registers 0 and 1 are CtrlWriteNeedsIdleAndZeroReservedBits and TimeoutWriteAffectsOnlyLaterSends. -/
def Obligations.LastErrWriteClearsAndOtherWritesAreRefused : Prop :=
  (∀ w : Word16, w.toNat / 256 = 0x19 →
    decode w = if w.toNat % 256 < 16 then some (.wrreg (w.toNat % 256)) else none) ∧
  ∀ s : State,
    exec (.wrreg 3) s = .next (s.after { s.st with lastErr := .ok } {} []) ∧
    (∀ n, n < 16 → n ≠ 0 → n ≠ 1 → n ≠ 3 → exec (.wrreg n) s = .next (s.afterRaise .invalidArgument)) ∧
    ((s.st.fsm ≠ .idle ∧ exec (.wrreg 0) s = .next (s.afterRaise .invalidState)) ∨
      (s.st.fsm = .idle ∧ s.op.val.toNat ≥ 2 ∧ exec (.wrreg 0) s = .next (s.afterRaise .invalidArgument)) ∨
      (s.st.fsm = .idle ∧ s.op.val.toNat < 2 ∧
        exec (.wrreg 0) s = .next (s.after { s.st with cfgMode := s.op.val.getLsbD 0 } {} []))) ∧
    ((s.op.val = 0#32 ∧ exec (.wrreg 1) s = .next (s.afterRaise .invalidArgument)) ∨
      (s.op.val ≠ 0#32 ∧ exec (.wrreg 1) s = .next (s.after { s.st with cfgTimeout := s.op.val } {} [])))

/-- The machine after reset satisfies the session invariants. Base case of the invariants the spec derives in
10_state.md R44 ("Every reachable state satisfies these"). -/
def Obligations.ResetStateIsLegal : Prop :=
  State.reset.Legal

/-- Every step from a legal state ends in a legal state. Inductive step of the invariants the spec derives in
10_state.md R44. -/
def Obligations.EveryStepKeepsTheSessionInvariants : Prop :=
  ∀ s t : State, s.Legal → step s = .next t → t.Legal

/-- No run from a legal state ever faults or refuses. That TICK has a fault at all is the model's choice
(notes/assumptions/8.md); the spec derives the invariants in 10_state.md R44. -/
def Obligations.LegalRunsNeverStop : Prop :=
  ∀ (n : Nat) (s : State), s.Legal → ∃ t, run n s = .next t ∧ t.Legal

/-- Each operation is taken from the head of the input, returns one response and appends its events. 00_scope.md R3,
20_memory.md R82, 70_reset_and_hazards.md R311: the frame of the model's own fields. -/
def Obligations.OneResponseAndOrderedEventsPerOperation : Prop :=
  ∀ (s t : State) (port : Port) (op : Op) (rest : List Input), s.inputs = .op port op :: rest → step s = .next t →
    t.inputs = rest ∧ t.op = op ∧ t.resp ≠ none ∧ t.wire = s.wire ++ t.outs ∧ t.maxBufLen = s.maxBufLen

/-- last_err takes every nonzero status and is otherwise kept, but for a LAST_ERR write. 60_exceptions.md R273. -/
def Obligations.LastErrIsStickyAndRecordsEveryFailure : Prop :=
  (∀ (i : Instr) (s t : State), exec i s = .next t →
    ∃ r, t.resp = some r ∧ (r.status ≠ .ok → t.st.lastErr = r.status) ∧
      (r.status = .ok → i ≠ .wrreg 3 → t.st.lastErr = s.st.lastErr) ∧
      (i = .wrreg 3 → r.status = .ok ∧ t.st.lastErr = .ok)) ∧
  ∀ (s : State) (port : Port) (op : Op) (rest : List Input), s.inputs = .op port op :: rest → decode op.w = none →
    ∃ t r, step s = .next t ∧ t.resp = some r ∧ r.status = .illegalOpcode ∧ t.st.lastErr = .illegalOpcode

/-- An error that is not a reported result leaves the state as it was but for last_err. 60_exceptions.md R272: the
default and its four exceptions (PARSE and DECODE with FramingError return defaults, so they are not excepted here).
-/
def Obligations.ErrorsArePrecise : Prop :=
  ∀ (i : Instr) (s t : State) (r : Resp), exec i s = .next t → t.resp = some r → r.status ≠ .ok →
    ¬ (i ∈ [Instr.chk, .decw, .decode, .parse] ∧ r.status = .codecUncorrectable) →
    ¬ (i = .parse ∧ r.status = .integrityMismatch) → i ≠ .rx → i ≠ .txerr →
    t = s.afterRaise r.status

/-- Each operation reports only the statuses the status table gives it. The table the spec derives in 60_exceptions.md
R271 ("This table is derived from the operation rules; it adds nothing to them"). -/
def Obligations.OperationsReportOnlyTheirStatuses : Prop :=
  ∀ (i : Instr) (s t : State) (r : Resp), exec i s = .next t → t.resp = some r → r.status ≠ .ok →
    r.status ∈
      (match i with
        | .parity | .encw | .rdreg _ => [Status.invalidArgument]
        | .chk | .decw => [.codecUncorrectable, .invalidArgument]
        | .encode => [.oversize]
        | .decode => [.framingError, .codecUncorrectable, .oversize]
        | .interleave | .deinterleave => [.framingError, .oversize]
        | .build _ => [.protocolError, .oversize]
        | .parse => [.framingError, .codecUncorrectable, .integrityMismatch, .oversize]
        | .send => [.invalidState, .oversize]
        | .bind => [.invalidState]
        | .wrreg _ => [.invalidState, .invalidArgument]
        | .rx => [.framingError, .codecUncorrectable, .integrityMismatch, .unknownType, .oversize]
        | .txerr => [.transportError]
        | .close | .tick | .listening => [])

/-- Codec, interleaver, framer and register-read operations change only last_err and repeat. 20_memory.md R80. -/
def Obligations.PureOperationsTouchOnlyLastErrAndRepeat : Prop :=
  ∀ (i : Instr) (s : State),
    (i ∈ [Instr.parity, .encw, .chk, .decw, .encode, .decode, .interleave, .deinterleave, .parse] ∨
      (∃ t, i = .build t) ∨ ∃ n, i = .rdreg n) →
    ∃ r : Resp,
      exec i s = .next (s.after (if r.status = .ok then s.st else s.st.withError r.status) r []) ∧
      exec i (s.after (if r.status = .ok then s.st else s.st.withError r.status) r []) =
        .next (s.after (if r.status = .ok then s.st else s.st.withError r.status) r [])

/-- Each counter goes up by the events of its kind and by nothing else. 10_state.md R42. -/
def Obligations.CountersCountTheirEvents : Prop :=
  (∀ (i : Instr) (s t : State), exec i s = .next t →
    t.st.cntTx = s.st.cntTx + BitVec.ofNat 32 (txEvents t.outs) ∧
    t.st.cntDeliver = s.st.cntDeliver + BitVec.ofNat 32 (deliverEvents t.outs) ∧
    t.st.cntRetx = s.st.cntRetx + (if i = .tick then BitVec.ofNat 32 (txEvents t.outs) else 0#32) ∧
    t.st.cntDrop = s.st.cntDrop + (if i = .rx ∧ (t.resp.map Resp.status) ≠ some .ok then 1#32 else 0#32)) ∧
  (∀ (s t : State) (port : Port) (op : Op) (rest : List Input), s.inputs = .op port op :: rest → decode op.w = none →
    step s = .next t →
    t.st.cntTx = s.st.cntTx ∧ t.st.cntRetx = s.st.cntRetx ∧ t.st.cntDeliver = s.st.cntDeliver ∧
      t.st.cntDrop = s.st.cntDrop) ∧
  ∀ (s t : State) (rest : List Input), s.inputs = .reset :: rest → step s = .next t →
    t.st.cntTx = 0#32 ∧ t.st.cntRetx = 0#32 ∧ t.st.cntDeliver = 0#32 ∧ t.st.cntDrop = 0#32

/-- Only SEND sets pending and target; only CLOSE, TXERR and RX clear them; always together. 10_state.md R34, R35. -/
def Obligations.PendingAndTargetAreWrittenTogetherByFourOperations : Prop :=
  ∀ (i : Instr) (s t : State), exec i s = .next t →
    (t.st.pending = s.st.pending ∧ t.st.target = s.st.target) ∨
    (i = .send ∧ ∃ bytes addr, t.outs = [.tx bytes addr] ∧ t.st.pending = some bytes ∧ t.st.target = some addr) ∨
    ((i = .close ∨ i = .txerr ∨ (i = .rx ∧ s.st.fsm = .awaitingAck)) ∧ t.st.pending = none ∧ t.st.target = none)

/-- While AwaitingAck lasts, mode, stored packet, target and interval never change. 44_socket.md R211, R214;
70_reset_and_hazards.md R324. -/
def Obligations.OnePacketOneModeWhileAwaitingAck : Prop :=
  ∀ s t : State, s.st.fsm = .awaitingAck → step s = .next t → t.st.fsm = .awaitingAck →
    t.st.cfgMode = s.st.cfgMode ∧ t.st.pending = s.st.pending ∧ t.st.target = s.st.target ∧
      t.st.timerActive = s.st.timerActive ∧ t.st.sessInterval = s.st.sessInterval

/-- Without a reset a closed block stays closed and emits nothing, however long it runs. 70_reset_and_hazards.md R323.
-/
def Obligations.ClosedIsTerminalAndSilent : Prop :=
  ∀ (n : Nat) (s : State), s.st.fsm = .closed → s.noResetAhead →
    ∃ t, run n s = .next t ∧ t.st.fsm = .closed ∧ t.wire = s.wire ∧ t.st.cfgMode = s.st.cfgMode ∧
      t.st.pending = s.st.pending ∧ t.st.timerActive = s.st.timerActive ∧ t.st.timerCount = s.st.timerCount ∧
      t.st.cntTx = s.st.cntTx ∧ t.st.cntRetx = s.st.cntRetx ∧ t.st.cntDeliver = s.st.cntDeliver ∧
      t.st.cntDrop = s.st.cntDrop

/-- The port an operation arrives on never matters, in any run. 30_encoding.md R98, 60_exceptions.md R281. -/
def Obligations.BehaviourNeverDependsOnThePort : Prop :=
  ∀ (f : Port → Port) (n : Nat) (s : State), run n (s.onPorts f) = mapNext (State.onPorts f) (run n s)

/-- Renaming addresses commutes with every run: the block inspects and compares none. 00_scope.md R8: an opaque value
carried unchanged from input to output. The type of addresses is open (notes/assumptions/4.md). -/
def Obligations.AddressesAreCarriedUnchanged : Prop :=
  ∀ (f : Addr → Addr) (n : Nat) (s : State), run n (s.renamed f) = mapNext (State.renamed f) (run n s)

/-- k intervals of ticks retransmit the stored packet exactly k times, for every k. 44_socket.md R208 corner cases;
R213, which the spec derives. -/
def Obligations.RetransmissionsRecurWithNoCap : Prop :=
  ∀ (n k : Nat) (s : State) (bytes : Buffer) (addr : Addr) (rest : List Input),
    s.st.fsm ≠ .closed → s.st.timerActive = true → s.st.pending = some bytes → s.st.target = some addr →
    1 ≤ n → s.st.timerCount.toNat = n → s.st.sessInterval.toNat = n →
    (s.inputs = tickInputs (k * n) ++ rest →
      ∃ t, run (k * n) s = .next t ∧ t.wire = s.wire ++ List.replicate k (.tx bytes addr) ∧ t.inputs = rest ∧
        t.st = { s.st with
          cntTx := s.st.cntTx + BitVec.ofNat 32 k, cntRetx := s.st.cntRetx + BitVec.ofNat 32 k }) ∧
    (s.inputs = tickInputs (n - 1) ++ rest →
      ∃ t, run (n - 1) s = .next t ∧ t.wire = s.wire ∧ t.inputs = rest ∧
        t.st = { s.st with timerCount := 1#32 })

/-- Both orders of an Acknowledgement racing the last tick end in Idle; only tick-first retransmits.
70_reset_and_hazards.md R316, which the spec derives. -/
def Obligations.AcknowledgementAndTickRace : Prop :=
  ∀ (s : State) (bytes : Buffer) (addr sender : Addr) (rest : List Input) (ack tick : Input),
    s.st.fsm = .awaitingAck → s.st.timerActive = true → s.st.timerCount = 1#32 → s.st.pending = some bytes →
    s.st.target = some addr →
    (∀ m ∈ s.maxBufLen, (buildRaw Config.digest .ack [] s.st.cfgMode).length ≤ m) →
    ack = .op .transport { w := 0x2000#16, data := buildRaw Config.digest .ack [] s.st.cfgMode, addr := sender } →
    tick = .op .timebase { w := 0x2100#16 } →
    (s.inputs = ack :: tick :: rest →
      ∃ t, run 2 s = .next t ∧ t.st.fsm = .idle ∧ t.st.timerActive = false ∧ t.wire = s.wire ∧
        t.st.cntRetx = s.st.cntRetx) ∧
    (s.inputs = tick :: ack :: rest →
      ∃ t, run 2 s = .next t ∧ t.st.fsm = .idle ∧ t.st.timerActive = false ∧ t.wire = s.wire ++ [.tx bytes addr] ∧
        t.st.cntRetx = s.st.cntRetx + 1#32)

/-- A message sent by one instance is delivered by another, and the Acknowledgement ends the send. Scenarios S7 and S8
of 95_test_vectors.md section 1; 44_socket.md R202, R206, R207, R208, R212. -/
def Obligations.SendDeliverAcknowledgeCompletes : Prop :=
  ∀ (a b : State) (fromA fromB : Addr), a.st.fsm = .idle → b.st.fsm ≠ .closed → a.st.cfgMode = b.st.cfgMode → a.fits →
    (∀ m ∈ b.maxBufLen, (buildRaw Config.digest .data a.op.data a.st.cfgMode).length ≤ m) →
    (∀ m ∈ a.maxBufLen, (buildRaw Config.digest .ack [] a.st.cfgMode).length ≤ m) →
    ∃ (packet ack : Buffer) (a1 b1 b2 a2 a3 : State),
      exec .send a = .next a1 ∧ a1.outs = [.tx packet a.op.addr] ∧ a1.st.fsm = .awaitingAck ∧
      exec .rx { b with op := { b.op with data := packet, addr := fromA } } = .next b1 ∧
      b1.outs = [.deliver a.op.data fromA, .tx ack fromA] ∧
      exec .rx b1 = .next b2 ∧ b2.outs = [.deliver a.op.data fromA, .tx ack fromA] ∧
      exec .rx { a1 with op := { a1.op with data := ack, addr := fromB } } = .next a2 ∧
      a2.outs = [] ∧ a2.st.fsm = .idle ∧ a2.st.pending = none ∧ a2.st.timerActive = false ∧
      exec .tick a2 = .next a3 ∧ a3.outs = [] ∧ a3.st = a2.st
end

