-- ==== Sys2Proof/Laws/Buffers.lean ====
section
/-!
SUPPORT. The small lemmas of the buffer, codec, interleaver and framer functions: their equations, lengths and bits.
-/

namespace Sys2Proof.Machine

open Sys2Proof

@[simp] theorem zeros_length (n : Nat) : (zeros n).length = n := by simp [zeros]

@[simp] theorem bitsOfByte_length (x : Byte) : (bitsOfByte x).length = 8 := by simp [bitsOfByte]

@[simp] theorem bitsOf_nil : bitsOf [] = [] := rfl

@[simp] theorem bitsOf_cons (x : Byte) (b : Buffer) : bitsOf (x :: b) = bitsOfByte x ++ bitsOf b := rfl

theorem bitsOf_append (a b : Buffer) : bitsOf (a ++ b) = bitsOf a ++ bitsOf b := by simp [bitsOf]

@[simp] theorem natOfBits_nil : natOfBits [] = 0 := rfl

@[simp] theorem natOfBits_cons (b : Bool) (s : List Bool) : natOfBits (b :: s) = b.toNat + 2 * natOfBits s := rfl

theorem natOfBits_lt (s : List Bool) : natOfBits s < 2 ^ s.length := by
  induction s with
  | nil => simp
  | cons b s ih =>
    rw [natOfBits_cons, List.length_cons, Nat.pow_succ]
    have := Bool.toNat_le b
    omega

theorem natOfBits_testBit (s : List Bool) (i : Nat) : (natOfBits s).testBit i = s.getD i false := by
  induction s generalizing i with
  | nil => simp
  | cons b s ih =>
    cases i with
    | zero => cases b <;> simp [Nat.testBit_zero]
    | succ i =>
      have h : (b.toNat + 2 * natOfBits s) / 2 = natOfBits s := by cases b <;> (simp; try omega)
      rw [natOfBits_cons, Nat.testBit_succ, h, ih]
      simp

theorem byteOfBits_getLsbD (s : List Bool) (i : Nat) (h : i < 8) : (byteOfBits s).getLsbD i = s.getD i false := by
  rw [byteOfBits, BitVec.getLsbD_ofNat, natOfBits_testBit]
  simp [h]

theorem bitAt_getLsbD (p : Nat) (b : Bool) (j : Nat) : (bitAt p b).getLsbD j = (decide (j < 16 ∧ j = p) && b) := by
  unfold bitAt
  simp only [BitVec.getLsbD_shiftLeft, BitVec.getLsbD_setWidth, BitVec.getLsbD_ofBool]
  by_cases h1 : j < 16 <;> by_cases h2 : j = p <;> by_cases h3 : j < p <;> simp [h1, h2, h3]
  all_goals omega

@[simp] theorem writeWordLE_length (w : Word16) : (writeWordLE w).length = 2 := rfl

@[simp] theorem encodeChunk_length (chunk : Buffer) : (encodeChunk chunk).length = 16 := by simp [encodeChunk]

@[simp] theorem encodeChunks_zero (b : Buffer) : encodeChunks 0 b = [] := rfl

theorem encodeChunks_succ (n : Nat) (b : Buffer) :
    encodeChunks (n + 1) b =
      encodeChunk (b.take 11 ++ zeros (11 - (b.take 11).length)) ++ encodeChunks n (b.drop 11) := rfl

@[simp] theorem encodeChunks_length (n : Nat) (b : Buffer) : (encodeChunks n b).length = 16 * n := by
  induction n generalizing b with
  | zero => rfl
  | succ n ih => rw [encodeChunks_succ, List.length_append, encodeChunk_length, ih]; omega

theorem encodeBuffer_length (b : Buffer) : (encodeBuffer b).length = 16 * ((b.length + 10) / 11) :=
  encodeChunks_length _ _

@[simp] theorem bitsOfData_length (d : Data11) : (bitsOfData d).length = 11 := by simp [bitsOfData]

@[simp] theorem bitsToBuffer_length (s : List Bool) : (bitsToBuffer s).length = (s.length + 7) / 8 := by
  simp [bitsToBuffer]

@[simp] theorem checkBlock_length (block : Buffer) : (checkBlock block).length = 8 := by simp [checkBlock]

@[simp] theorem decodeBlock_length (block : Buffer) : (decodeBlock block).length = 11 := by
  simp [decodeBlock, checkBlock, List.length_flatMap, Function.comp_def]

@[simp] theorem decodeBlocks_zero (b : Buffer) : decodeBlocks 0 b = [] := rfl

theorem decodeBlocks_succ (n : Nat) (b : Buffer) :
    decodeBlocks (n + 1) b = decodeBlock (b.take 16) ++ decodeBlocks n (b.drop 16) := rfl

@[simp] theorem decodeBlocks_length (n : Nat) (b : Buffer) : (decodeBlocks n b).length = 11 * n := by
  induction n generalizing b with
  | zero => rfl
  | succ n ih => rw [decodeBlocks_succ, List.length_append, decodeBlock_length, ih]; omega

@[simp] theorem blocksValid_zero (b : Buffer) : blocksValid 0 b = true := rfl

theorem blocksValid_succ (n : Nat) (b : Buffer) :
    blocksValid (n + 1) b = (blockValid (b.take 16) && blocksValid n (b.drop 16)) := rfl

/-- 41_hamming.md R116: what `Decode` answers, misaligned and aligned. -/
theorem decodeBuffer_misaligned {b : Buffer} (h : b.length % 16 ≠ 0) : decodeBuffer b = ⟨.framingError, false, []⟩ := by
  simp [decodeBuffer, blockLen, h]

theorem decodeBuffer_aligned {b : Buffer} (h : b.length % 16 = 0) :
    decodeBuffer b =
      ⟨decodeStatus (blocksValid (b.length / 16) b), blocksValid (b.length / 16) b, decodeBlocks (b.length / 16) b⟩ := by
  simp [decodeBuffer, blockLen, h]

@[simp] theorem interleaveBlock_length (block : Buffer) : (interleaveBlock block).length = 16 := by
  simp [interleaveBlock]

@[simp] theorem deinterleaveBlock_length (block : Buffer) : (deinterleaveBlock block).length = 16 := by
  simp [deinterleaveBlock]

@[simp] theorem mapBlocks_zero (f : Buffer → Buffer) (b : Buffer) : mapBlocks f 0 b = [] := rfl

theorem mapBlocks_succ (f : Buffer → Buffer) (n : Nat) (b : Buffer) :
    mapBlocks f (n + 1) b = f (b.take 16) ++ mapBlocks f n (b.drop 16) := rfl

theorem mapBlocks_length {f : Buffer → Buffer} (hf : ∀ b, (f b).length = 16) (n : Nat) (b : Buffer) :
    (mapBlocks f n b).length = 16 * n := by
  induction n generalizing b with
  | zero => rfl
  | succ n ih => rw [mapBlocks_succ, List.length_append, hf, ih]; omega

/-- 42_interleaver.md R150: what `Interleave` answers. -/
theorem interleave_eq_some_iff {b x : Buffer} :
    interleave b = some x ↔ b.length % 16 = 0 ∧ x = mapBlocks interleaveBlock (b.length / 16) b := by
  by_cases h : b.length % 16 = 0 <;> simp [interleave, blockLen, h, eq_comm]

/-- 42_interleaver.md R151: what `Deinterleave` answers. -/
theorem deinterleave_eq_some_iff {b x : Buffer} :
    deinterleave b = some x ↔ b.length % 16 = 0 ∧ x = mapBlocks deinterleaveBlock (b.length / 16) b := by
  by_cases h : b.length % 16 = 0 <;> simp [deinterleave, blockLen, h, eq_comm]

@[simp] theorem PacketType.ofByte_byte (t : PacketType) : PacketType.ofByte t.byte = some t := by cases t <;> rfl

theorem PacketType.ofByte_eq_some_iff {x : Byte} {t : PacketType} : PacketType.ofByte x = some t ↔ x = t.byte := by
  unfold PacketType.ofByte
  cases t <;> by_cases h1 : x = 1#8 <;> by_cases h2 : x = 2#8 <;> simp_all [PacketType.byte]

theorem PacketType.ofByte_eq_none_iff {x : Byte} : PacketType.ofByte x = none ↔ x ≠ 1#8 ∧ x ≠ 2#8 := by
  unfold PacketType.ofByte
  by_cases h1 : x = 1#8 <;> by_cases h2 : x = 2#8 <;> simp_all

/-- The padding byte holds the padding (43_framer.md R171). -/
theorem paddingSize_byte_toNat (m : Nat) : (BitVec.ofNat 8 (paddingSize m)).toNat = paddingSize m := by
  have : paddingSize m < 11 := Nat.mod_lt _ (by decide)
  simp
  omega

theorem buildRaw_data (msg : Buffer) (mode : Bool) :
    buildRaw Config.digest .data msg mode = sealedPacket 1#8 msg mode := rfl

theorem buildRaw_ack (msg : Buffer) (mode : Bool) :
    buildRaw Config.digest .ack msg mode = sealedPacket 2#8 [] mode := rfl

/-- 43_framer.md R174: a received buffer that is too short or misaligned fails, in either mode. -/
theorem parseRaw_framing {digest : Buffer → Vector Byte 16} {raw : Buffer} {mode : Bool}
    (h : raw.length < 18 ∨ raw.length % 16 ≠ 0) : parseRaw digest raw mode = Parsed.framingFailure := by
  unfold parseRaw minRawLen
  by_cases hs : raw.length < 18
  · simp [hs]
  have hm : raw.length % 16 ≠ 0 := by omega
  cases mode <;> simp [hs, codedOf, decodeBuffer_misaligned, deinterleave, blockLen, hm]

/-- 43_framer.md R174 to R176: an aligned buffer is decoded and its fields are read. -/
theorem parseRaw_decoded {digest : Buffer → Vector Byte 16} {raw coded : Buffer} {mode : Bool}
    (hlen : 18 ≤ raw.length) (hc : codedOf raw mode = some coded) (ha : coded.length % 16 = 0) :
    parseRaw digest raw mode = parseDecoded digest (decodeBuffer coded).valid (decodeBuffer coded).data := by
  have hs : (decodeBuffer coded).status ≠ .framingError := by
    rw [decodeBuffer_aligned ha]
    cases blocksValid (coded.length / 16) coded <;> simp [decodeStatus]
  unfold parseRaw minRawLen
  simp [Nat.not_lt.2 hlen, hc, hs]

/-- The status of an invalid parse is one of three errors, and of a valid one `OK` (43_framer.md R174, R176). -/
theorem parseRaw_status (digest : Buffer → Vector Byte 16) (raw : Buffer) (mode : Bool) :
    ((parseRaw digest raw mode).valid = true ∧ (parseRaw digest raw mode).status = .ok) ∨
    ((parseRaw digest raw mode).valid = false ∧
      ((parseRaw digest raw mode).status = .framingError ∨ (parseRaw digest raw mode).status = .codecUncorrectable ∨
        (parseRaw digest raw mode).status = .integrityMismatch)) := by
  unfold parseRaw
  split
  · simp [Parsed.framingFailure]
  split
  · simp [Parsed.framingFailure]
  dsimp only
  split
  · simp [Parsed.framingFailure]
  · simp only [parseDecoded, parseStatus]
    split
    · simp_all
    · split <;> simp_all

end Sys2Proof.Machine
end

