-- ==== Sys2Proof/Laws/Decode.lean ====
section
/-!
SUPPORT. The lemmas of the operation word: its two bytes, the two immediate forms, and what each opcode decodes to.
-/

namespace Sys2Proof

/-- 30_encoding.md R91: a word is its opcode byte in front of its immediate byte. -/
theorem opcodeOf_append_imm8Of (w : Word16) : opcodeOf w ++ imm8Of w = w := by
  apply BitVec.eq_of_toNat_eq
  have := w.isLt
  rw [BitVec.toNat_append, ← Nat.shiftLeft_add_eq_or_of_lt (imm8Of w).isLt]
  simp only [opcodeOf, imm8Of, BitVec.extractLsb'_toNat, Nat.shiftLeft_eq, Nat.shiftRight_eq_div_pow]
  omega

@[simp] theorem opcodeOf_append (a b : Byte) : opcodeOf (a ++ b) = a := by
  apply BitVec.eq_of_toNat_eq
  have ha := a.isLt
  have hb := b.isLt
  simp only [opcodeOf, BitVec.extractLsb'_toNat, BitVec.toNat_append]
  rw [← Nat.shiftLeft_add_eq_or_of_lt b.isLt]
  simp only [Nat.shiftLeft_eq, Nat.shiftRight_eq_div_pow]
  omega

@[simp] theorem imm8Of_append (a b : Byte) : imm8Of (a ++ b) = b := by
  apply BitVec.eq_of_toNat_eq
  have ha := a.isLt
  have hb := b.isLt
  simp only [imm8Of, BitVec.extractLsb'_toNat, BitVec.toNat_append]
  rw [← Nat.shiftLeft_add_eq_or_of_lt b.isLt]
  simp only [Nat.shiftLeft_eq, Nat.shiftRight_eq_div_pow]
  omega

theorem opcodeOf_toNat (w : Word16) : (opcodeOf w).toNat = w.toNat / 256 := by
  have := w.isLt
  simp only [opcodeOf, BitVec.extractLsb'_toNat, Nat.shiftRight_eq_div_pow]
  omega

theorem imm8Of_toNat (w : Word16) : (imm8Of w).toNat = w.toNat % 256 := by
  simp only [imm8Of, BitVec.extractLsb'_toNat, Nat.shiftRight_eq_div_pow]
  omega

/-- 30_encoding.md R95, first case. -/
@[simp] theorem fixedForm_eq_some_iff {imm : Byte} {i j : Instr} : fixedForm imm i = some j ↔ imm = 0#8 ∧ i = j := by
  unfold fixedForm
  split <;> simp_all

@[simp] theorem fixedForm_eq_none_iff {imm : Byte} {i : Instr} : fixedForm imm i = none ↔ imm ≠ 0#8 := by
  unfold fixedForm
  split <;> simp_all

/-- 30_encoding.md R95, second case. -/
theorem registerForm_eq (imm : Byte) (f : Nat → Instr) :
    registerForm imm f = if imm.toNat < 16 then some (f imm.toNat) else none := by
  have h : ∀ b : Byte, (b.extractLsb' 4 4 = 0#4 ↔ b.toNat < 16) ∧ (b.toNat < 16 → (b.extractLsb' 0 4).toNat = b.toNat) := by
    decide
  unfold registerForm
  by_cases hlt : imm.toNat < 16
  · rw [if_pos ((h imm).1.2 hlt), if_pos hlt, (h imm).2 hlt]
  · rw [if_neg fun he => hlt ((h imm).1.1 he), if_neg hlt]

theorem decode_opcode_parity {w : Word16} (h : opcodeOf w = 0x01#8) : decode w = fixedForm (imm8Of w) .parity := by
  simp [decode, h]

theorem decode_opcode_encw {w : Word16} (h : opcodeOf w = 0x02#8) : decode w = fixedForm (imm8Of w) .encw := by
  simp [decode, h]

theorem decode_opcode_chk {w : Word16} (h : opcodeOf w = 0x03#8) : decode w = fixedForm (imm8Of w) .chk := by
  simp [decode, h]

theorem decode_opcode_decw {w : Word16} (h : opcodeOf w = 0x04#8) : decode w = fixedForm (imm8Of w) .decw := by
  simp [decode, h]

theorem decode_opcode_encode {w : Word16} (h : opcodeOf w = 0x05#8) : decode w = fixedForm (imm8Of w) .encode := by
  simp [decode, h]

theorem decode_opcode_decode {w : Word16} (h : opcodeOf w = 0x06#8) : decode w = fixedForm (imm8Of w) .decode := by
  simp [decode, h]

theorem decode_opcode_interleave {w : Word16} (h : opcodeOf w = 0x07#8) : decode w = fixedForm (imm8Of w) .interleave := by
  simp [decode, h]

theorem decode_opcode_deinterleave {w : Word16} (h : opcodeOf w = 0x08#8) : decode w = fixedForm (imm8Of w) .deinterleave := by
  simp [decode, h]

theorem decode_opcode_build {w : Word16} (h : opcodeOf w = 0x09#8) : decode w = some (.build (imm8Of w)) := by
  simp [decode, h]

theorem decode_opcode_parse {w : Word16} (h : opcodeOf w = 0x0A#8) : decode w = fixedForm (imm8Of w) .parse := by
  simp [decode, h]

theorem decode_opcode_send {w : Word16} (h : opcodeOf w = 0x10#8) : decode w = fixedForm (imm8Of w) .send := by
  simp [decode, h]

theorem decode_opcode_close {w : Word16} (h : opcodeOf w = 0x11#8) : decode w = fixedForm (imm8Of w) .close := by
  simp [decode, h]

theorem decode_opcode_bind {w : Word16} (h : opcodeOf w = 0x12#8) : decode w = fixedForm (imm8Of w) .bind := by
  simp [decode, h]

theorem decode_opcode_rdreg {w : Word16} (h : opcodeOf w = 0x18#8) : decode w = registerForm (imm8Of w) .rdreg := by
  simp [decode, h]

theorem decode_opcode_wrreg {w : Word16} (h : opcodeOf w = 0x19#8) : decode w = registerForm (imm8Of w) .wrreg := by
  simp [decode, h]

theorem decode_opcode_rx {w : Word16} (h : opcodeOf w = 0x20#8) : decode w = fixedForm (imm8Of w) .rx := by
  simp [decode, h]

theorem decode_opcode_tick {w : Word16} (h : opcodeOf w = 0x21#8) : decode w = fixedForm (imm8Of w) .tick := by
  simp [decode, h]

theorem decode_opcode_txerr {w : Word16} (h : opcodeOf w = 0x22#8) : decode w = fixedForm (imm8Of w) .txerr := by
  simp [decode, h]

theorem decode_opcode_listening {w : Word16} (h : opcodeOf w = 0x23#8) : decode w = fixedForm (imm8Of w) .listening := by
  simp [decode, h]

/-- The assigned opcodes (30_encoding.md R93). -/
def assignedOpcodes : List Byte :=
  [0x01#8, 0x02#8, 0x03#8, 0x04#8, 0x05#8, 0x06#8, 0x07#8, 0x08#8, 0x09#8, 0x0A#8, 0x10#8, 0x11#8, 0x12#8, 0x18#8, 0x19#8,
    0x20#8, 0x21#8, 0x22#8, 0x23#8]

/-- 30_encoding.md R94. -/
theorem decode_opcode_unassigned {w : Word16} (h : opcodeOf w ∉ assignedOpcodes) : decode w = none := by
  simp only [assignedOpcodes, List.mem_cons, List.not_mem_nil, or_false, not_or] at h
  obtain ⟨h1, h2, h3, h4, h5, h6, h7, h8, h9, h10, h11, h12, h13, h14, h15, h16, h17, h18, h19⟩ := h
  unfold decode
  rw [if_neg h1, if_neg h2, if_neg h3, if_neg h4, if_neg h5, if_neg h6, if_neg h7, if_neg h8, if_neg h9, if_neg h10,
    if_neg h11, if_neg h12, if_neg h13, if_neg h14, if_neg h15, if_neg h16, if_neg h17, if_neg h18, if_neg h19]

end Sys2Proof
end

