-- ==== Sys2Proof/Laws/State.lean ====
section
/-!
SUPPORT. One lemma per field per named update of the state, so that no proof unfolds a record update.
-/

namespace Sys2Proof.Machine

open Sys2Proof

section St

/-- 00_scope.md R8: an address is its name. -/
theorem addr_eq_iff_token_eq {a b : Addr} : a = b ↔ a.token = b.token := by
  cases a; cases b; simp

variable (st : St)

@[simp] theorem St.record_fsm (x : Status) : (st.record x).fsm = st.fsm := rfl
@[simp] theorem St.record_pending (x : Status) : (st.record x).pending = st.pending := rfl
@[simp] theorem St.record_target (x : Status) : (st.record x).target = st.target := rfl
@[simp] theorem St.record_timerActive (x : Status) : (st.record x).timerActive = st.timerActive := rfl
@[simp] theorem St.record_timerCount (x : Status) : (st.record x).timerCount = st.timerCount := rfl
@[simp] theorem St.record_sessInterval (x : Status) : (st.record x).sessInterval = st.sessInterval := rfl
@[simp] theorem St.record_cfgMode (x : Status) : (st.record x).cfgMode = st.cfgMode := rfl
@[simp] theorem St.record_cfgTimeout (x : Status) : (st.record x).cfgTimeout = st.cfgTimeout := rfl
@[simp] theorem St.record_lastErr (x : Status) : (st.record x).lastErr = if x = .ok then st.lastErr else x := rfl
@[simp] theorem St.record_cntTx (x : Status) : (st.record x).cntTx = st.cntTx := rfl
@[simp] theorem St.record_cntRetx (x : Status) : (st.record x).cntRetx = st.cntRetx := rfl
@[simp] theorem St.record_cntDeliver (x : Status) : (st.record x).cntDeliver = st.cntDeliver := rfl
@[simp] theorem St.record_cntDrop (x : Status) : (st.record x).cntDrop = st.cntDrop := rfl

@[simp] theorem St.disarm_fsm : st.disarm.fsm = st.fsm := rfl
@[simp] theorem St.disarm_pending : st.disarm.pending = none := rfl
@[simp] theorem St.disarm_target : st.disarm.target = none := rfl
@[simp] theorem St.disarm_timerActive : st.disarm.timerActive = false := rfl
@[simp] theorem St.disarm_timerCount : st.disarm.timerCount = 0#32 := rfl
@[simp] theorem St.disarm_sessInterval : st.disarm.sessInterval = st.sessInterval := rfl
@[simp] theorem St.disarm_cfgMode : st.disarm.cfgMode = st.cfgMode := rfl
@[simp] theorem St.disarm_cfgTimeout : st.disarm.cfgTimeout = st.cfgTimeout := rfl
@[simp] theorem St.disarm_lastErr : st.disarm.lastErr = st.lastErr := rfl
@[simp] theorem St.disarm_cntTx : st.disarm.cntTx = st.cntTx := rfl
@[simp] theorem St.disarm_cntRetx : st.disarm.cntRetx = st.cntRetx := rfl
@[simp] theorem St.disarm_cntDeliver : st.disarm.cntDeliver = st.cntDeliver := rfl
@[simp] theorem St.disarm_cntDrop : st.disarm.cntDrop = st.cntDrop := rfl

@[simp] theorem St.arm_fsm (raw : Buffer) (addr : Addr) : (st.arm raw addr).fsm = .awaitingAck := rfl
@[simp] theorem St.arm_pending (raw : Buffer) (addr : Addr) : (st.arm raw addr).pending = some raw := rfl
@[simp] theorem St.arm_target (raw : Buffer) (addr : Addr) : (st.arm raw addr).target = some addr := rfl
@[simp] theorem St.arm_timerActive (raw : Buffer) (addr : Addr) : (st.arm raw addr).timerActive = true := rfl
@[simp] theorem St.arm_timerCount (raw : Buffer) (addr : Addr) : (st.arm raw addr).timerCount = st.cfgTimeout := rfl
@[simp] theorem St.arm_sessInterval (raw : Buffer) (addr : Addr) : (st.arm raw addr).sessInterval = st.cfgTimeout := rfl
@[simp] theorem St.arm_cfgMode (raw : Buffer) (addr : Addr) : (st.arm raw addr).cfgMode = st.cfgMode := rfl
@[simp] theorem St.arm_cfgTimeout (raw : Buffer) (addr : Addr) : (st.arm raw addr).cfgTimeout = st.cfgTimeout := rfl
@[simp] theorem St.arm_lastErr (raw : Buffer) (addr : Addr) : (st.arm raw addr).lastErr = st.lastErr := rfl
@[simp] theorem St.arm_cntTx (raw : Buffer) (addr : Addr) : (st.arm raw addr).cntTx = st.cntTx := rfl
@[simp] theorem St.arm_cntRetx (raw : Buffer) (addr : Addr) : (st.arm raw addr).cntRetx = st.cntRetx := rfl
@[simp] theorem St.arm_cntDeliver (raw : Buffer) (addr : Addr) : (st.arm raw addr).cntDeliver = st.cntDeliver := rfl
@[simp] theorem St.arm_cntDrop (raw : Buffer) (addr : Addr) : (st.arm raw addr).cntDrop = st.cntDrop := rfl

@[simp] theorem St.shut_fsm : st.shut.fsm = .closed := rfl
@[simp] theorem St.shut_pending : st.shut.pending = none := rfl
@[simp] theorem St.shut_target : st.shut.target = none := rfl
@[simp] theorem St.shut_timerActive : st.shut.timerActive = false := rfl
@[simp] theorem St.shut_timerCount : st.shut.timerCount = 0#32 := rfl
@[simp] theorem St.shut_sessInterval : st.shut.sessInterval = st.sessInterval := rfl
@[simp] theorem St.shut_cfgMode : st.shut.cfgMode = st.cfgMode := rfl
@[simp] theorem St.shut_cfgTimeout : st.shut.cfgTimeout = st.cfgTimeout := rfl
@[simp] theorem St.shut_lastErr : st.shut.lastErr = st.lastErr := rfl
@[simp] theorem St.shut_cntTx : st.shut.cntTx = st.cntTx := rfl
@[simp] theorem St.shut_cntRetx : st.shut.cntRetx = st.cntRetx := rfl
@[simp] theorem St.shut_cntDeliver : st.shut.cntDeliver = st.cntDeliver := rfl
@[simp] theorem St.shut_cntDrop : st.shut.cntDrop = st.cntDrop := rfl

@[simp] theorem St.countTx_fsm : st.countTx.fsm = st.fsm := rfl
@[simp] theorem St.countTx_pending : st.countTx.pending = st.pending := rfl
@[simp] theorem St.countTx_target : st.countTx.target = st.target := rfl
@[simp] theorem St.countTx_timerActive : st.countTx.timerActive = st.timerActive := rfl
@[simp] theorem St.countTx_timerCount : st.countTx.timerCount = st.timerCount := rfl
@[simp] theorem St.countTx_sessInterval : st.countTx.sessInterval = st.sessInterval := rfl
@[simp] theorem St.countTx_cfgMode : st.countTx.cfgMode = st.cfgMode := rfl
@[simp] theorem St.countTx_cfgTimeout : st.countTx.cfgTimeout = st.cfgTimeout := rfl
@[simp] theorem St.countTx_lastErr : st.countTx.lastErr = st.lastErr := rfl
@[simp] theorem St.countTx_cntTx : st.countTx.cntTx = st.cntTx + 1#32 := rfl
@[simp] theorem St.countTx_cntRetx : st.countTx.cntRetx = st.cntRetx := rfl
@[simp] theorem St.countTx_cntDeliver : st.countTx.cntDeliver = st.cntDeliver := rfl
@[simp] theorem St.countTx_cntDrop : st.countTx.cntDrop = st.cntDrop := rfl

@[simp] theorem St.countRetx_fsm : st.countRetx.fsm = st.fsm := rfl
@[simp] theorem St.countRetx_pending : st.countRetx.pending = st.pending := rfl
@[simp] theorem St.countRetx_target : st.countRetx.target = st.target := rfl
@[simp] theorem St.countRetx_timerActive : st.countRetx.timerActive = st.timerActive := rfl
@[simp] theorem St.countRetx_timerCount : st.countRetx.timerCount = st.timerCount := rfl
@[simp] theorem St.countRetx_sessInterval : st.countRetx.sessInterval = st.sessInterval := rfl
@[simp] theorem St.countRetx_cfgMode : st.countRetx.cfgMode = st.cfgMode := rfl
@[simp] theorem St.countRetx_cfgTimeout : st.countRetx.cfgTimeout = st.cfgTimeout := rfl
@[simp] theorem St.countRetx_lastErr : st.countRetx.lastErr = st.lastErr := rfl
@[simp] theorem St.countRetx_cntTx : st.countRetx.cntTx = st.cntTx := rfl
@[simp] theorem St.countRetx_cntRetx : st.countRetx.cntRetx = st.cntRetx + 1#32 := rfl
@[simp] theorem St.countRetx_cntDeliver : st.countRetx.cntDeliver = st.cntDeliver := rfl
@[simp] theorem St.countRetx_cntDrop : st.countRetx.cntDrop = st.cntDrop := rfl

@[simp] theorem St.countDeliver_fsm : st.countDeliver.fsm = st.fsm := rfl
@[simp] theorem St.countDeliver_pending : st.countDeliver.pending = st.pending := rfl
@[simp] theorem St.countDeliver_target : st.countDeliver.target = st.target := rfl
@[simp] theorem St.countDeliver_timerActive : st.countDeliver.timerActive = st.timerActive := rfl
@[simp] theorem St.countDeliver_timerCount : st.countDeliver.timerCount = st.timerCount := rfl
@[simp] theorem St.countDeliver_sessInterval : st.countDeliver.sessInterval = st.sessInterval := rfl
@[simp] theorem St.countDeliver_cfgMode : st.countDeliver.cfgMode = st.cfgMode := rfl
@[simp] theorem St.countDeliver_cfgTimeout : st.countDeliver.cfgTimeout = st.cfgTimeout := rfl
@[simp] theorem St.countDeliver_lastErr : st.countDeliver.lastErr = st.lastErr := rfl
@[simp] theorem St.countDeliver_cntTx : st.countDeliver.cntTx = st.cntTx := rfl
@[simp] theorem St.countDeliver_cntRetx : st.countDeliver.cntRetx = st.cntRetx := rfl
@[simp] theorem St.countDeliver_cntDeliver : st.countDeliver.cntDeliver = st.cntDeliver + 1#32 := rfl
@[simp] theorem St.countDeliver_cntDrop : st.countDeliver.cntDrop = st.cntDrop := rfl

@[simp] theorem St.countDrop_fsm : st.countDrop.fsm = st.fsm := rfl
@[simp] theorem St.countDrop_pending : st.countDrop.pending = st.pending := rfl
@[simp] theorem St.countDrop_target : st.countDrop.target = st.target := rfl
@[simp] theorem St.countDrop_timerActive : st.countDrop.timerActive = st.timerActive := rfl
@[simp] theorem St.countDrop_timerCount : st.countDrop.timerCount = st.timerCount := rfl
@[simp] theorem St.countDrop_sessInterval : st.countDrop.sessInterval = st.sessInterval := rfl
@[simp] theorem St.countDrop_cfgMode : st.countDrop.cfgMode = st.cfgMode := rfl
@[simp] theorem St.countDrop_cfgTimeout : st.countDrop.cfgTimeout = st.cfgTimeout := rfl
@[simp] theorem St.countDrop_lastErr : st.countDrop.lastErr = st.lastErr := rfl
@[simp] theorem St.countDrop_cntTx : st.countDrop.cntTx = st.cntTx := rfl
@[simp] theorem St.countDrop_cntRetx : st.countDrop.cntRetx = st.cntRetx := rfl
@[simp] theorem St.countDrop_cntDeliver : st.countDrop.cntDeliver = st.cntDeliver := rfl
@[simp] theorem St.countDrop_cntDrop : st.countDrop.cntDrop = st.cntDrop + 1#32 := rfl

@[simp] theorem St.withError_fsm (x : Status) : (st.withError x).fsm = st.fsm := rfl
@[simp] theorem St.withError_pending (x : Status) : (st.withError x).pending = st.pending := rfl
@[simp] theorem St.withError_target (x : Status) : (st.withError x).target = st.target := rfl
@[simp] theorem St.withError_timerActive (x : Status) : (st.withError x).timerActive = st.timerActive := rfl
@[simp] theorem St.withError_timerCount (x : Status) : (st.withError x).timerCount = st.timerCount := rfl
@[simp] theorem St.withError_sessInterval (x : Status) : (st.withError x).sessInterval = st.sessInterval := rfl
@[simp] theorem St.withError_cfgMode (x : Status) : (st.withError x).cfgMode = st.cfgMode := rfl
@[simp] theorem St.withError_cfgTimeout (x : Status) : (st.withError x).cfgTimeout = st.cfgTimeout := rfl
@[simp] theorem St.withError_lastErr (x : Status) : (st.withError x).lastErr = x := rfl
@[simp] theorem St.withError_cntTx (x : Status) : (st.withError x).cntTx = st.cntTx := rfl
@[simp] theorem St.withError_cntRetx (x : Status) : (st.withError x).cntRetx = st.cntRetx := rfl
@[simp] theorem St.withError_cntDeliver (x : Status) : (st.withError x).cntDeliver = st.cntDeliver := rfl
@[simp] theorem St.withError_cntDrop (x : Status) : (st.withError x).cntDrop = st.cntDrop := rfl

@[simp] theorem St.record_ok : st.record .ok = st := rfl

theorem St.record_error {x : Status} (h : x ≠ .ok) : st.record x = st.withError x := by
  simp [St.record, St.withError, h]

end St

section State

variable (s : State)

@[simp] theorem State.commit_st (st : St) (resp : Resp) (outs : List Event) : (s.commit st resp outs).st = st.record resp.status := rfl
@[simp] theorem State.commit_inputs (st : St) (resp : Resp) (outs : List Event) : (s.commit st resp outs).inputs = s.inputs := rfl
@[simp] theorem State.commit_op (st : St) (resp : Resp) (outs : List Event) : (s.commit st resp outs).op = s.op := rfl
@[simp] theorem State.commit_resp (st : St) (resp : Resp) (outs : List Event) : (s.commit st resp outs).resp = some resp := rfl
@[simp] theorem State.commit_outs (st : St) (resp : Resp) (outs : List Event) : (s.commit st resp outs).outs = outs := rfl
@[simp] theorem State.commit_wire (st : St) (resp : Resp) (outs : List Event) : (s.commit st resp outs).wire = s.wire ++ outs := rfl
@[simp] theorem State.commit_maxBufLen (st : St) (resp : Resp) (outs : List Event) : (s.commit st resp outs).maxBufLen = s.maxBufLen := rfl

@[simp] theorem State.after_st (st : St) (resp : Resp) (outs : List Event) : (s.after st resp outs).st = st := rfl
@[simp] theorem State.after_inputs (st : St) (resp : Resp) (outs : List Event) : (s.after st resp outs).inputs = s.inputs := rfl
@[simp] theorem State.after_op (st : St) (resp : Resp) (outs : List Event) : (s.after st resp outs).op = s.op := rfl
@[simp] theorem State.after_resp (st : St) (resp : Resp) (outs : List Event) : (s.after st resp outs).resp = some resp := rfl
@[simp] theorem State.after_outs (st : St) (resp : Resp) (outs : List Event) : (s.after st resp outs).outs = outs := rfl
@[simp] theorem State.after_wire (st : St) (resp : Resp) (outs : List Event) : (s.after st resp outs).wire = s.wire ++ outs := rfl
@[simp] theorem State.after_maxBufLen (st : St) (resp : Resp) (outs : List Event) : (s.after st resp outs).maxBufLen = s.maxBufLen := rfl

@[simp] theorem State.accept_st (op : Op) (rest : List Input) : (s.accept op rest).st = s.st := rfl
@[simp] theorem State.accept_inputs (op : Op) (rest : List Input) : (s.accept op rest).inputs = rest := rfl
@[simp] theorem State.accept_op (op : Op) (rest : List Input) : (s.accept op rest).op = op := rfl
@[simp] theorem State.accept_resp (op : Op) (rest : List Input) : (s.accept op rest).resp = s.resp := rfl
@[simp] theorem State.accept_outs (op : Op) (rest : List Input) : (s.accept op rest).outs = s.outs := rfl
@[simp] theorem State.accept_wire (op : Op) (rest : List Input) : (s.accept op rest).wire = s.wire := rfl
@[simp] theorem State.accept_maxBufLen (op : Op) (rest : List Input) : (s.accept op rest).maxBufLen = s.maxBufLen := rfl

@[simp] theorem State.takeReset_st (rest : List Input) : (s.takeReset rest).st = St.reset := rfl
@[simp] theorem State.takeReset_inputs (rest : List Input) : (s.takeReset rest).inputs = rest := rfl
@[simp] theorem State.takeReset_op (rest : List Input) : (s.takeReset rest).op = s.op := rfl
@[simp] theorem State.takeReset_resp (rest : List Input) : (s.takeReset rest).resp = none := rfl
@[simp] theorem State.takeReset_outs (rest : List Input) : (s.takeReset rest).outs = [] := rfl
@[simp] theorem State.takeReset_wire (rest : List Input) : (s.takeReset rest).wire = s.wire := rfl
@[simp] theorem State.takeReset_maxBufLen (rest : List Input) : (s.takeReset rest).maxBufLen = s.maxBufLen := rfl

@[simp] theorem State.present_st (port : Port) (op : Op) : (s.present port op).st = s.st := rfl
@[simp] theorem State.present_inputs (port : Port) (op : Op) : (s.present port op).inputs = .op port op :: s.inputs := rfl
@[simp] theorem State.present_op (port : Port) (op : Op) : (s.present port op).op = s.op := rfl
@[simp] theorem State.present_resp (port : Port) (op : Op) : (s.present port op).resp = s.resp := rfl
@[simp] theorem State.present_outs (port : Port) (op : Op) : (s.present port op).outs = s.outs := rfl
@[simp] theorem State.present_wire (port : Port) (op : Op) : (s.present port op).wire = s.wire := rfl
@[simp] theorem State.present_maxBufLen (port : Port) (op : Op) : (s.present port op).maxBufLen = s.maxBufLen := rfl

theorem State.commit_eq_after (st : St) (resp : Resp) (outs : List Event) :
    s.commit st resp outs = s.after (st.record resp.status) resp outs := rfl

theorem State.commit_eq_after_of_ok (st : St) {resp : Resp} (outs : List Event) (h : resp.status = .ok) :
    s.commit st resp outs = s.after st resp outs := by
  simp [State.commit_eq_after, h]

end State

end Sys2Proof.Machine
end

