-- ==== Sys2Proof/Laws/Ops.lean ====
section
/-!
SUPPORT. One lemma for each shared operation that says once what it can do; later proofs cite these.
-/

namespace Sys2Proof.Machine

open Sys2Proof

variable {s t : State}

@[simp] theorem complete_next_iff {st : St} {resp : Resp} {outs : List Event} :
    complete s st resp outs = .next t ↔ t = s.commit st resp outs := by
  simp [complete, eq_comm]

@[simp] theorem answer_next_iff {resp : Resp} : answer s resp = .next t ↔ t = s.commit s.st resp [] := by
  simp [answer]

/-- 60_exceptions.md R272: a raise with an error leaves the state before plus `last_err`. -/
theorem raise_eq {x : Status} (h : x ≠ .ok) : raise s x = .next (s.afterRaise x) := by
  simp [raise, answer, complete, State.commit_eq_after, State.afterRaise, St.record_error _ h]

/-- 44_socket.md R205: a drop counts the datagram and emits nothing. -/
theorem dropDatagram_eq {resp : Resp} {x : Status} (h : x ≠ .ok) :
    dropDatagram s resp x = .next (s.after (s.st.countDrop.withError x) { resp with status := x } []) := by
  simp [dropDatagram, complete, State.commit_eq_after, St.record_error _ h]

theorem wordOperand_eq_some_iff {v : Word32} {w : Word16} : wordOperand v = some w ↔ v = w.setWidth 32 := by
  unfold wordOperand
  constructor
  · intro h
    split at h
    · rename_i hz
      injection h with h
      have := congrArg BitVec.toNat hz
      subst h
      apply BitVec.eq_of_toNat_eq
      simp [BitVec.extractLsb'_toNat] at this ⊢
      omega
    · cases h
  · rintro rfl
    have h1 : (w.setWidth 32).extractLsb' 16 16 = 0#16 := by
      apply BitVec.eq_of_toNat_eq
      have := w.isLt
      simp [BitVec.extractLsb'_toNat]
      omega
    rw [if_pos h1]
    congr 1
    apply BitVec.eq_of_toNat_eq
    have := w.isLt
    simp [BitVec.extractLsb'_toNat]
    omega

theorem dataOperand_eq_some_iff {v : Word32} {d : Data11} : dataOperand v = some d ↔ v = d.setWidth 32 := by
  unfold dataOperand
  constructor
  · intro h
    split at h
    · rename_i hz
      injection h with h
      have := congrArg BitVec.toNat hz
      subst h
      apply BitVec.eq_of_toNat_eq
      simp [BitVec.extractLsb'_toNat] at this ⊢
      omega
    · cases h
  · rintro rfl
    have h1 : (d.setWidth 32).extractLsb' 11 21 = 0#21 := by
      apply BitVec.eq_of_toNat_eq
      have := d.isLt
      simp [BitVec.extractLsb'_toNat]
      omega
    rw [if_pos h1]
    congr 1
    apply BitVec.eq_of_toNat_eq
    have := d.isLt
    simp [BitVec.extractLsb'_toNat]
    omega

/-- 41_hamming.md R117. -/
theorem withWord_cases (s : State) (k : Word16 → Result) :
    withWord s k = raise s .invalidArgument ∨ ∃ w, s.op.val = w.setWidth 32 ∧ withWord s k = k w := by
  unfold withWord
  cases h : wordOperand s.op.val with
  | none => exact .inl rfl
  | some w => exact .inr ⟨w, wordOperand_eq_some_iff.1 h, rfl⟩

/-- 41_hamming.md R117. -/
theorem withData11_cases (s : State) (k : Data11 → Result) :
    withData11 s k = raise s .invalidArgument ∨ ∃ d, s.op.val = d.setWidth 32 ∧ withData11 s k = k d := by
  unfold withData11
  cases h : dataOperand s.op.val with
  | none => exact .inl rfl
  | some d => exact .inr ⟨d, dataOperand_eq_some_iff.1 h, rfl⟩

/-- 30_encoding.md R99, point 4. -/
theorem withBuffer_cases (s : State) (k : Buffer → Result) :
    (s.oversize = true ∧ withBuffer s k = raise s .oversize) ∨ (s.oversize = false ∧ withBuffer s k = k s.op.data) := by
  unfold withBuffer
  cases h : s.oversize <;> simp

/-- 00_scope.md R8: the length check against `MAX_BUF_LEN`, with no limit where it is unbounded. -/
theorem tooLong_eq_true_iff {limit : Option Nat} {n : Nat} : tooLong limit n = true ↔ ∃ m, limit = some m ∧ m < n := by
  cases n <;> cases limit <;> simp [tooLong]

/-- 44_socket.md R208: what the expiry of the timer can do. -/
theorem retransmit_next_iff :
    retransmit s = .next t ↔ ∃ bytes addr, s.st.pending = some bytes ∧ s.st.target = some addr ∧
      t = s.commit { s.st.countTx.countRetx with timerCount := s.st.sessInterval } {} [.tx bytes addr] := by
  unfold retransmit
  cases s.st.pending <;> cases s.st.target <;> simp

/-- 45_registers.md R251 to R254: what a register write that is not refused can do. -/
theorem writeRegister_ok_cases {st st' : St} {reg : Nat} {v : Word32} (h : writeRegister st reg v = .ok st') :
    (reg = 0 ∧ st.fsm = .idle ∧ st' = { st with cfgMode := v.getLsbD 0 }) ∨
    (reg = 1 ∧ v ≠ 0#32 ∧ st' = { st with cfgTimeout := v }) ∨
    (reg = 3 ∧ st' = { st with lastErr := .ok }) := by
  unfold writeRegister at h
  split at h
  · simp only [writeCtrl] at h
    split at h
    · cases h
    · split at h
      · cases h
      · cases h; simp_all
  · simp only [writeTimeout] at h
    split at h
    · cases h
    · cases h; simp_all
  · cases h; simp
  · cases h

/-- 45_registers.md R251: the errors a register write can raise. -/
theorem writeRegister_error_cases {st : St} {reg : Nat} {v : Word32} {x : Status}
    (h : writeRegister st reg v = .error x) : x = .invalidState ∨ x = .invalidArgument := by
  unfold writeRegister at h
  split at h
  · simp only [writeCtrl] at h
    split at h
    · cases h; simp
    · split at h <;> cases h; simp
  · simp only [writeTimeout] at h
    split at h <;> cases h; simp
  · cases h
  · cases h; simp

/-- A step, once: nothing is presented, a reset is taken, an illegal word raises, or an operation runs. -/
theorem step_cases (s : State) :
    (s.inputs = [] ∧ step s = .next s) ∨
    (∃ rest, s.inputs = .reset :: rest ∧ step s = .next (s.takeReset rest)) ∨
    (∃ port op rest, s.inputs = .op port op :: rest ∧ decode op.w = none ∧
      step s = .next ((s.accept op rest).afterRaise .illegalOpcode)) ∨
    (∃ port op rest i, s.inputs = .op port op :: rest ∧ decode op.w = some i ∧
      step s = exec i (s.accept op rest)) := by
  unfold step fetch
  match h : s.inputs with
  | [] => simp
  | .reset :: rest => simp
  | .op port op :: rest =>
    cases hd : decode op.w with
    | none => simp [hd, raise_eq]
    | some i => simp [hd]

end Sys2Proof.Machine
end

