-- ==== Sys2Proof/Laws/Exec.lean ====
section
/-!
SUPPORT. What the meanings can do: every operation that answers a next state ends in one `commit`, and the cases of the
session operations.
-/

namespace Sys2Proof.Machine

open Sys2Proof

variable {s t : State}

/-- An operation that answers a next state did nothing to the machine but set the architectural state, return one
response and emit its events (00_scope.md R3). -/
def Commits (s : State) (o : Result) : Prop :=
  ∀ t, o = .next t → ∃ st resp outs, t = s.commit st resp outs

theorem complete_commits (st : St) (resp : Resp) (outs : List Event) : Commits s (complete s st resp outs) :=
  fun _ h => ⟨st, resp, outs, complete_next_iff.1 h⟩

theorem answer_commits (resp : Resp) : Commits s (answer s resp) := complete_commits _ _ _

theorem raise_commits (x : Status) : Commits s (raise s x) := answer_commits _

theorem fault_commits (r : Fault) : Commits s (.fault r) := fun _ h => by cases h

theorem dropDatagram_commits (resp : Resp) (x : Status) : Commits s (dropDatagram s resp x) := complete_commits _ _ _

theorem withWord_commits {k : Word16 → Result} (h : ∀ w, Commits s (k w)) : Commits s (withWord s k) := by
  obtain e | ⟨w, -, e⟩ := withWord_cases s k <;> rw [e]
  · exact raise_commits _
  · exact h w

theorem withData11_commits {k : Data11 → Result} (h : ∀ d, Commits s (k d)) : Commits s (withData11 s k) := by
  obtain e | ⟨d, -, e⟩ := withData11_cases s k <;> rw [e]
  · exact raise_commits _
  · exact h d

theorem withBuffer_commits {k : Buffer → Result} (h : ∀ b, Commits s (k b)) : Commits s (withBuffer s k) := by
  obtain ⟨-, e⟩ | ⟨-, e⟩ := withBuffer_cases s k <;> rw [e]
  · exact raise_commits _
  · exact h _

theorem answerBlocks_commits (out : Option Buffer) : Commits s (answerBlocks s out) := by
  cases out
  · exact raise_commits _
  · exact answer_commits _

theorem retransmit_commits : Commits s (retransmit s) := fun _ h => by
  obtain ⟨_, _, -, -, rfl⟩ := retransmit_next_iff.1 h
  exact ⟨_, _, _, rfl⟩

theorem acceptAck_commits (resp : Resp) : Commits s (acceptAck s resp) := by
  unfold acceptAck
  split
  · exact complete_commits _ _ _
  · exact answer_commits _

theorem acceptParsed_commits (r : Parsed) : Commits s (acceptParsed s r) := by
  unfold acceptParsed
  split
  · split
    · exact acceptAck_commits _
    · exact complete_commits _ _ _
    · exact dropDatagram_commits _ _
  · exact dropDatagram_commits _ _

theorem execTick_commits : Commits s (execTick s) := by
  unfold execTick
  split
  · exact answer_commits _
  split
  · exact answer_commits _
  split
  · exact fault_commits _
  split
  · exact retransmit_commits
  · exact complete_commits _ _ _

theorem execRx_commits : Commits s (execRx s) := by
  unfold execRx
  split
  · exact answer_commits _
  split
  · exact dropDatagram_commits _ _
  · exact acceptParsed_commits _

/-- Every operation of 30_encoding.md R93 that answers a next state ends in one `commit` of the state it began in. -/
theorem exec_commits (i : Instr) (s : State) : Commits s (exec i s) := by
  cases i with
  | parity => exact withWord_commits fun _ => answer_commits _
  | encw => exact withData11_commits fun _ => answer_commits _
  | chk => exact withWord_commits fun _ => answer_commits _
  | decw => exact withWord_commits fun _ => answer_commits _
  | encode => exact withBuffer_commits fun _ => answer_commits _
  | decode => exact withBuffer_commits fun _ => answer_commits _
  | interleave => exact withBuffer_commits fun _ => answerBlocks_commits _
  | deinterleave => exact withBuffer_commits fun _ => answerBlocks_commits _
  | build ptype =>
    simp only [exec, execBuild]
    refine withBuffer_commits fun b => ?_
    cases PacketType.ofByte ptype
    · exact raise_commits _
    · exact answer_commits _
  | parse => exact withBuffer_commits fun _ => answer_commits _
  | send =>
    simp only [exec, execSend]
    split
    · exact raise_commits _
    · exact withBuffer_commits fun _ => complete_commits _ _ _
  | close =>
    simp only [exec, execClose]
    split
    · exact answer_commits _
    · exact complete_commits _ _ _
  | bind =>
    simp only [exec, execBind]
    split
    · exact raise_commits _
    · exact complete_commits _ _ _
  | rdreg reg =>
    simp only [exec, execRdreg]
    split
    · exact raise_commits _
    · exact answer_commits _
  | wrreg reg =>
    simp only [exec, execWrreg]
    split
    · exact raise_commits _
    · exact complete_commits _ _ _
  | rx => exact execRx_commits
  | tick => exact execTick_commits
  | txerr =>
    simp only [exec, execTxerr]
    split
    · exact answer_commits _
    · exact complete_commits _ _ _
  | listening =>
    simp only [exec, execListening]
    split
    · exact answer_commits _
    · exact complete_commits _ _ _

/-- 44_socket.md R205: `RX` outside `Closed`, and in `Closed`. -/
theorem execRx_cases (s : State) :
    (s.st.fsm = .closed ∧ execRx s = .next (s.commit s.st {} [])) ∨
    (s.st.fsm ≠ .closed ∧ s.oversize = true ∧ execRx s = dropDatagram s {} .oversize) ∨
    (s.st.fsm ≠ .closed ∧ s.oversize = false ∧
      execRx s = acceptParsed s (parseRaw Config.digest s.op.data s.st.cfgMode)) := by
  unfold execRx
  by_cases h : s.st.fsm = .closed
  · exact .inl ⟨h, by simp [h]⟩
  · cases ho : s.oversize
    · exact .inr (.inr ⟨h, rfl, by simp [h]⟩)
    · exact .inr (.inl ⟨h, rfl, by simp [h]⟩)

/-- 44_socket.md R208: the cases of `TICK`. -/
theorem execTick_cases (s : State) :
    ((s.st.fsm = .closed ∨ s.st.timerActive = false) ∧ execTick s = .next (s.commit s.st {} [])) ∨
    (s.st.fsm ≠ .closed ∧ s.st.timerActive = true ∧ s.st.timerCount = 0#32 ∧ execTick s = .fault .timerUnderflow) ∨
    (s.st.fsm ≠ .closed ∧ s.st.timerActive = true ∧ s.st.timerCount = 1#32 ∧ execTick s = retransmit s) ∨
    (s.st.fsm ≠ .closed ∧ s.st.timerActive = true ∧ s.st.timerCount ≠ 0#32 ∧ s.st.timerCount ≠ 1#32 ∧
      execTick s = .next (s.commit { s.st with timerCount := s.st.timerCount - 1#32 } {} [])) := by
  unfold execTick
  by_cases h : s.st.fsm = .closed
  · exact .inl ⟨.inl h, by simp [h]⟩
  cases ha : s.st.timerActive
  · exact .inl ⟨.inr rfl, by simp [h]⟩
  by_cases h0 : s.st.timerCount = 0#32
  · exact .inr (.inl ⟨h, rfl, h0, by simp [h, h0]⟩)
  by_cases h1 : s.st.timerCount = 1#32
  · exact .inr (.inr (.inl ⟨h, rfl, h1, by simp [h, h1]⟩))
  · exact .inr (.inr (.inr ⟨h, rfl, h0, h1, by simp [h, h0, h1]⟩))

end Sys2Proof.Machine
end

