-- ==== Sys2Proof/Laws/PerInstr.lean ====
section
/-!
SUPPORT. The family `EncodeMatchesTable`: the word the encoder writes for an operation belongs to the row of
spec/opcode_table.json that its mnemonic names.
-/

namespace Sys2Proof.Laws

open Sys2Proof

/-- Some row of the opcode table has the operation's mnemonic and covers its word. -/
def EncodeMatchesTable.Statement (i : Instr) : Prop :=
  i.wellFormed = true → ∃ r ∈ opcodeTable, r.mnemonic = i.mnemonic ∧ r.covers (encode i) = true

theorem EncodeMatchesTable.parity : Statement .parity := by unfold Statement; decide
theorem EncodeMatchesTable.encw : Statement .encw := by unfold Statement; decide
theorem EncodeMatchesTable.chk : Statement .chk := by unfold Statement; decide
theorem EncodeMatchesTable.decw : Statement .decw := by unfold Statement; decide
theorem EncodeMatchesTable.encode : Statement .encode := by unfold Statement; decide
theorem EncodeMatchesTable.decode : Statement .decode := by unfold Statement; decide
theorem EncodeMatchesTable.interleave : Statement .interleave := by unfold Statement; decide
theorem EncodeMatchesTable.deinterleave : Statement .deinterleave := by unfold Statement; decide
theorem EncodeMatchesTable.parse : Statement .parse := by unfold Statement; decide
theorem EncodeMatchesTable.send : Statement .send := by unfold Statement; decide
theorem EncodeMatchesTable.close : Statement .close := by unfold Statement; decide
theorem EncodeMatchesTable.bind : Statement .bind := by unfold Statement; decide
theorem EncodeMatchesTable.rx : Statement .rx := by unfold Statement; decide
theorem EncodeMatchesTable.tick : Statement .tick := by unfold Statement; decide
theorem EncodeMatchesTable.txerr : Statement .txerr := by unfold Statement; decide
theorem EncodeMatchesTable.listening : Statement .listening := by unfold Statement; decide

theorem EncodeMatchesTable.build (ptype : Byte) : Statement (.build ptype) := fun _ => by
  refine ⟨⟨"BUILD", 0x0900#16, 0xFF00#16⟩, by decide, rfl, ?_⟩
  revert ptype; decide

theorem EncodeMatchesTable.rdreg (reg : Nat) : Statement (.rdreg reg) := fun h => by
  refine ⟨⟨"RDREG", 0x1800#16, 0xFFF0#16⟩, by decide, rfl, ?_⟩
  have hr : reg < 16 := of_decide_eq_true h
  clear h
  revert reg; decide

theorem EncodeMatchesTable.wrreg (reg : Nat) : Statement (.wrreg reg) := fun h => by
  refine ⟨⟨"WRREG", 0x1900#16, 0xFFF0#16⟩, by decide, rfl, ?_⟩
  have hr : reg < 16 := of_decide_eq_true h
  clear h
  revert reg; decide

end Sys2Proof.Laws
end

