-- ==== Sys2Proof/Tests/Slice0.lean ====
section
/-!
SUPPORT. The model's own tests. Expected words, bytes and statuses are those of spec/95_test_vectors.md or of the
examples in the rules named; the witnesses at the end show that each statement's hypotheses can be met.
-/

namespace Sys2Proof.Tests

-- one theorem at a time: each `decide +kernel` run in parallel would reserve a thread stack of its own
set_option Elab.async false

open Sys2Proof Sys2Proof.Machine

-- ---- well-formedness (30_encoding.md R92, R95)

theorem test_rdreg_16_is_ill_formed : (Instr.rdreg 16).wellFormed = false := by decide
theorem test_wrreg_16_is_ill_formed : (Instr.wrreg 16).wellFormed = false := by decide
theorem test_rdreg_15_is_well_formed : (Instr.rdreg 15).wellFormed = true := by decide

-- ---- decoding, words written out from 30_encoding.md R93

theorem test_decode_parity : decode 0b0000000100000000#16 = some .parity := by decide
theorem test_decode_encw : decode 0b0000001000000000#16 = some .encw := by decide
theorem test_decode_chk : decode 0b0000001100000000#16 = some .chk := by decide
theorem test_decode_decw : decode 0b0000010000000000#16 = some .decw := by decide
theorem test_decode_encode : decode 0b0000010100000000#16 = some .encode := by decide
theorem test_decode_decode : decode 0b0000011000000000#16 = some .decode := by decide
theorem test_decode_interleave : decode 0b0000011100000000#16 = some .interleave := by decide
theorem test_decode_deinterleave : decode 0b0000100000000000#16 = some .deinterleave := by decide
theorem test_decode_build : decode 0b0000100110100101#16 = some (.build 0xA5#8) := by decide
theorem test_decode_parse : decode 0b0000101000000000#16 = some .parse := by decide
theorem test_decode_send : decode 0b0001000000000000#16 = some .send := by decide
theorem test_decode_close : decode 0b0001000100000000#16 = some .close := by decide
theorem test_decode_bind : decode 0b0001001000000000#16 = some .bind := by decide
theorem test_decode_rdreg : decode 0b0001100000001011#16 = some (.rdreg 11) := by decide
theorem test_decode_wrreg : decode 0b0001100100000011#16 = some (.wrreg 3) := by decide
theorem test_decode_rx : decode 0b0010000000000000#16 = some .rx := by decide
theorem test_decode_tick : decode 0b0010000100000000#16 = some .tick := by decide
theorem test_decode_txerr : decode 0b0010001000000000#16 = some .txerr := by decide
theorem test_decode_listening : decode 0b0010001100000000#16 = some .listening := by decide

/-- The illegal words of 95_test_vectors.md 2.7. -/
theorem test_decode_illegal :
    [0x0000#16, 0x0101#16, 0x0BFF#16, 0x0F00#16, 0x1300#16, 0x1700#16, 0x1A00#16, 0x1F00#16, 0x2400#16, 0xFFFF#16, 0x1810#16,
      0x19F3#16, 0x2101#16].all (fun w => (decode w).isNone) = true := by decide

/-- No word belongs to two rows of spec/opcode_table.json. -/
theorem test_opcode_rows_do_not_overlap :
    opcodeTable.Pairwise fun r q => r.pattern &&& q.mask &&& r.mask ≠ q.pattern &&& q.mask &&& r.mask := by decide +kernel

-- ---- codec functions, 95_test_vectors.md 2.1 to 2.3

theorem test_encWord : [0x000#11, 0x001#11, 0x555#11, 0x7FF#11].map encWord = [0x0000#16, 0x000F#16, 0xAA5A#16, 0xFFFF#16] := by
  decide +kernel

theorem test_chk_corrects_bit_0 : checkAndCorrect 0xAA5B#16 = ⟨false, 0xAA5A#16⟩ := by decide +kernel
theorem test_chk_three_flips_miscorrect : checkAndCorrect 0xAA4C#16 = ⟨false, 0xAACC#16⟩ := by decide +kernel
theorem test_chk_eight_flips_pass : checkAndCorrect 0xAAA5#16 = ⟨false, 0xAAA5#16⟩ := by decide +kernel

/-- "hello" -/
def hello : Buffer := [0x68#8, 0x65#8, 0x6C#8, 0x6C#8, 0x6F#8]

/-- `ENCODE "hello"` (41_hamming.md R122). -/
def helloCoded : Buffer :=
  [0x90#8, 0xAC#8, 0xD7#8, 0xB1#8, 0x1D#8, 0xB7#8, 0x6F#8, 0x06#8, 0#8, 0#8, 0#8, 0#8, 0#8, 0#8, 0#8, 0#8]

/-- `INTERLEAVE` of it (42_interleaver.md R154). -/
def helloInterleaved : Buffer :=
  [0x0E#8, 0x0A#8, 0x0E#8, 0x0C#8, 0x07#8, 0x08#8, 0x0A#8, 0x03#8, 0x06#8, 0x0C#8, 0x0D#8, 0x01#8, 0x06#8, 0x07#8, 0#8,
    0x07#8]

theorem test_encode_hello : encodeBuffer hello = helloCoded := by decide +kernel
theorem test_decode_hello : decodeBuffer helloCoded = ⟨.ok, true, hello ++ zeros 6⟩ := by decide +kernel
theorem test_interleave_hello : interleave helloCoded = some helloInterleaved := by decide +kernel
theorem test_deinterleave_hello : deinterleave helloInterleaved = some helloCoded := by decide +kernel

/-- 90_conflicts.md C2: byte 1 = `80` (word 0, bit 15) goes to byte 15 = `01`. -/
theorem test_interleave_word_0_bit_15 :
    interleave (zeros 1 ++ [0x80#8] ++ zeros 14) = some (zeros 15 ++ [0x01#8]) := by decide +kernel

/-- 95_test_vectors.md 2.2: `E` with byte 0 XOR `28`. -/
theorem test_decode_best_effort :
    decodeBuffer (helloCoded.set 0 0xB8#8) = ⟨.codecUncorrectable, false, 0x6B#8 :: hello.drop 1 ++ zeros 6⟩ := by
  decide +kernel

/-- The digests of the two frames of 95_test_vectors.md 2.4.1 used here, as that section gives them for its example
digest; any other content gets zeros. -/
def vectorDigest (content : Buffer) : Vector Byte 16 :=
  if content = 0x01#8 :: 0x0A#8 :: hello then
    #v[0x1F#8, 0x43#8, 0x77#8, 0xA7#8, 0x50#8, 0x4B#8, 0xB4#8, 0x4F#8, 0x03#8, 0x93#8, 0x3A#8, 0x4D#8, 0x41#8, 0x67#8,
      0x9D#8, 0x08#8]
  else if content = [0x02#8, 0x04#8] then
    #v[0x72#8, 0x2C#8, 0x30#8, 0xB2#8, 0xD5#8, 0x0C#8, 0xEE#8, 0x9D#8, 0x21#8, 0x35#8, 0x45#8, 0x60#8, 0x97#8, 0x5E#8,
      0xFD#8, 0xF5#8]
  else Vector.replicate 16 0#8

/-- `RAW0` of the Acknowledgement (95_test_vectors.md 2.4.1). -/
theorem test_build_ack :
    buildRaw vectorDigest .ack hello false =
      [0x24#8, 0x8E#8, 0x59#8, 0xC0#8, 0x82#8, 0xD8#8, 0xA5#8, 0xCC#8, 0x11#8, 0xDD#8, 0xAA#8, 0x66#8, 0x95#8, 0xA9#8,
        0x88#8, 0x44#8, 0x12#8, 0xED#8, 0x21#8, 0x7B#8, 0x5A#8, 0xFF#8, 0xB7#8, 0x2E#8, 0x06#8, 0x09#8, 0#8, 0#8, 0#8,
        0#8, 0#8, 0#8] := by decide +kernel

/-- `RAW1` of Data "hello" (95_test_vectors.md 2.4.1). -/
def helloRaw1 : Buffer :=
  [0x9A#8, 0xAF#8, 0x3A#8, 0x25#8, 0x91#8, 0x21#8, 0xB5#8, 0x2F#8, 0x57#8, 0xA5#8, 0x0A#8, 0xD2#8, 0xEE#8, 0x99#8,
    0x37#8, 0x6A#8, 0x82#8, 0x06#8, 0x5C#8, 0xC5#8, 0xD3#8, 0x80#8, 0x0D#8, 0x43#8, 0x48#8, 0x64#8, 0x96#8, 0xA7#8,
    0x3A#8, 0xC1#8, 0xE4#8, 0x02#8, 0#8, 0#8, 1#8, 1#8, 1#8, 1#8, 1#8, 1#8, 0#8, 0#8, 1#8, 1#8, 0#8, 0#8, 0#8, 0#8]

theorem test_build_data_interleaved : buildRaw vectorDigest .data hello true = helloRaw1 := by decide +kernel

theorem test_parse_data_interleaved :
    parseRaw vectorDigest helloRaw1 true = ⟨.ok, true, true, true, 0x01#8, 0x0A#8, hello⟩ := by decide +kernel

/-- 95_test_vectors.md 2.4.3: the wrong mode. -/
theorem test_parse_wrong_mode :
    parseRaw vectorDigest helloRaw1 false = ⟨.codecUncorrectable, false, false, false, 0x54#8, 0x3A#8, []⟩ := by
  decide +kernel

/-- 95_test_vectors.md 3.4: `R1'`, byte 5 replaced. -/
theorem test_parse_one_bad_byte : (parseRaw vectorDigest (helloRaw1.set 5 0#8) true).msg = hello := by decide +kernel

-- ---- one operation on a small state

/-- The state a result answers, if it is one. -/
def nextOf : Result → Option State
  | .next s => some s
  | _ => none

/-- A state with an unbounded buffer, nothing presented and no event so far. -/
def stateOf (st : St) (op : Op) : State :=
  { st := st, inputs := [], op := op, resp := none, outs := [], wire := [], maxBufLen := none }

/-- The address a token names, or the unused one where the token names none (notes/assumptions/4.md). -/
def addrNamed (n : Nat) : Addr := if h : n = 0 ∨ Config.isAddr n = true then ⟨n, h⟩ else .unused

/-- An operation record of operands alone. -/
def operands (data : Buffer) (addr : Addr) (val : Word32) : Op := { w := 0#16, data := data, addr := addr, val := val }

/-- A session that awaits an Acknowledgement, with `count` ticks left of an interval of 3. -/
def awaiting (count : Word32) : St :=
  { St.reset with
    fsm := .awaitingAck, pending := some [1#8, 2#8], target := some (addrNamed 7), timerActive := true, timerCount := count,
    sessInterval := 3#32 }

/-- A closed session. -/
def closed : St := { St.reset with fsm := .closed }

/-- The response of an operation. -/
def respOf (o : Result) : Option Resp := (nextOf o).bind State.resp

/-- The events of an operation. -/
def outsOf (o : Result) : Option (List Event) := (nextOf o).map State.outs

/-- The session after an operation. -/
def stOf (o : Result) : Option St := (nextOf o).map State.st

theorem test_parity : respOf (exec .parity (stateOf St.reset (operands [] .unused 0x8000#32))) = some { val := 0x117#32 } := by
  decide +kernel
theorem test_parity_range :
    stOf (exec .parity (stateOf St.reset (operands [] .unused 0x10000#32))) = some (St.reset.withError .invalidArgument) := by
  decide +kernel
theorem test_encw : respOf (exec .encw (stateOf closed (operands [] .unused 0x555#32))) = some { val := 0xAA5A#32 } := by
  decide +kernel
theorem test_encw_range :
    respOf (exec .encw (stateOf closed (operands [] .unused 0x800#32))) = some { status := .invalidArgument } := by
  decide +kernel
theorem test_chk :
    respOf (exec .chk (stateOf St.reset (operands [] .unused 0xAA72#32))) =
      some { status := .codecUncorrectable, unrec := true, val := 0xAA72#32 } := by decide +kernel
theorem test_decw : respOf (exec .decw (stateOf St.reset (operands [] .unused 0xAA7A#32))) = some { val := 0x555#32 } := by
  decide +kernel
theorem test_encode_op :
    respOf (exec .encode (stateOf St.reset (operands hello .unused 0#32))) = some { data := helloCoded } := by decide +kernel
theorem test_decode_op_misaligned :
    stOf (exec .decode (stateOf St.reset (operands (zeros 15) .unused 0#32))) = some (St.reset.withError .framingError) := by
  decide +kernel
theorem test_interleave_op_misaligned :
    respOf (exec .interleave (stateOf St.reset (operands (zeros 15) .unused 0#32))) = some { status := .framingError } := by
  decide +kernel
theorem test_deinterleave_op :
    respOf (exec .deinterleave (stateOf St.reset (operands helloInterleaved .unused 0#32))) =
      some { data := helloCoded } := by decide +kernel
theorem test_build_unknown_type :
    respOf (exec (.build 3#8) (stateOf St.reset (operands [] .unused 0#32))) = some { status := .protocolError } := by
  decide +kernel
theorem test_parse_op_short :
    respOf (exec .parse (stateOf St.reset (operands (zeros 16) .unused 0#32))) = some { status := .framingError } := by
  decide +kernel
theorem test_send_arms :
    (stOf (exec .send (stateOf St.reset (operands hello (addrNamed 5) 0#32)))).map
      (fun st => (st.fsm, st.target, st.timerCount, st.sessInterval, st.cntTx)) =
      some (.awaitingAck, some (addrNamed 5), 1000#32, 1000#32, 1#32) := by rfl
theorem test_send_refused_while_awaiting :
    respOf (exec .send (stateOf (awaiting 2#32) (operands hello (addrNamed 5) 0#32))) = some { status := .invalidState } := by
  decide +kernel
theorem test_close :
    outsOf (exec .close (stateOf (awaiting 2#32) (operands [] .unused 0#32))) = some [.tClose] := by decide +kernel
theorem test_bind :
    outsOf (exec .bind (stateOf St.reset (operands [] (addrNamed 9) 0#32))) = some [.tBind (addrNamed 9)] := by rfl
/-- 95_test_vectors.md 2.6: `STATUS` in `AwaitingAck` is `0xD`. -/
theorem test_rdreg_status :
    respOf (exec (.rdreg 2) (stateOf (awaiting 2#32) (operands [] .unused 0#32))) = some { val := 0xD#32 } := by decide +kernel
theorem test_wrreg_ctrl_state_check_first :
    respOf (exec (.wrreg 0) (stateOf (awaiting 2#32) (operands [] .unused 2#32))) = some { status := .invalidState } := by
  decide +kernel
theorem test_wrreg_timeout :
    stOf (exec (.wrreg 1) (stateOf (awaiting 2#32) (operands [] .unused 5#32))) =
      some { awaiting 2#32 with cfgTimeout := 5#32 } := by rfl
theorem test_rx_short_is_dropped :
    stOf (exec .rx (stateOf St.reset (operands [] (addrNamed 4) 0#32))) =
      some { St.reset with lastErr := .framingError, cntDrop := 1#32 } := by decide +kernel
theorem test_tick_counts_down :
    stOf (exec .tick (stateOf (awaiting 3#32) (operands [] .unused 0#32))) = some (awaiting 2#32) := by rfl
theorem test_tick_retransmits :
    outsOf (exec .tick (stateOf (awaiting 1#32) (operands [] .unused 0#32))) =
      some [.tx [1#8, 2#8] (addrNamed 7)] := by rfl
theorem test_txerr :
    outsOf (exec .txerr (stateOf (awaiting 1#32) (operands [] .unused 7#32))) =
      some [.tClose, .error .transportError 7#32] := by decide +kernel
theorem test_listening_in_closed :
    outsOf (exec .listening (stateOf closed (operands [] .unused 0#32))) = some [] := by decide +kernel

-- ---- the first step after reset

/-- 95_test_vectors.md 2.6: `RDREG TIMEOUT` right after reset. -/
theorem test_first_step_rdreg : respOf (step (State.reset.withFetchWord 16 0x1801)) = some { val := 1000#32 } := by rfl
theorem test_first_step_send :
    outsOf (step (State.reset.withFetchWord 16 0x1000)) =
      some [.tx (buildRaw Config.digest .data [] false) .unused] := by rfl
theorem test_first_step_illegal :
    respOf (step (State.reset.withFetchWord 16 0x2101)) = some { status := .illegalOpcode } := by rfl
/-- 30_encoding.md R101: `SETMODE #1` is `WRREG CTRL, #1`, word `0x1900`. -/
theorem test_assemble_setMode : Asm.ops (.setMode true) = [{ w := 0x1900#16, val := 1#32 }] := by decide +kernel

-- ---- witnesses: for each statement that has hypotheses, a state and operands that meet them

/-- A state after reset but for an unbounded buffer, with items presented. -/
def presenting (inputs : List Input) : State := { stateOf St.reset (operands [] .unused 0#32) with inputs := inputs }

/-- An operation record of a word alone. -/
def word (w : Word16) : Op := { w := w }

/-- The session after reset in mode 1. -/
def mode1 : St := { St.reset with cfgMode := true }

theorem fits_stateOf (st : St) (op : Op) : (stateOf st op).fits := fun _ h => nomatch h

/-- A buffer with one byte replaced. -/
theorem oneBadByte_set (r : Buffer) (n : Nat) (x : Byte) : OneBadBytePerBlock r (r.set n x) := by
  refine ⟨List.length_set, fun blk j k _ _ hj hk => ?_⟩
  have h : ∀ m, (r.set n x)[m]? ≠ r[m]? → n = m := fun m hm => by
    by_contra hne
    exact hm (List.getElem?_set_ne hne)
  have := h _ hj
  have := h _ hk
  omega

theorem witness_StepRunsTheDecodedOperation :
    (presenting [.op .host (word 0x180F#16)]).inputs = .op .host (word 0x180F#16) :: [] ∧
      decode (word 0x180F#16).w = some (.rdreg 15) := ⟨rfl, by decide⟩

/-- Both ends of every range of unassigned opcodes. -/
theorem witness_IllegalOpcodeRaisesAndChangesOnlyLastErr :
    [0x00, 0x0B, 0x0F, 0x13, 0x17, 0x1A, 0x1F, 0x24, 0xFF].all (fun n =>
      let op := word (BitVec.ofNat 16 (256 * n))
      (presenting [.op .transport op]).inputs == [.op .transport op] && op.w.toNat / 256 == n && op.w.toNat % 256 == 0)
      = true := by decide

theorem witness_ReservedImmediateBits :
    [(0x0101, 0x01), (0x23FF, 0x23), (0x1810, 0x18), (0x19FF, 0x19)].all (fun (w, n) =>
      let op := word (BitVec.ofNat 16 w)
      (presenting [.op .host op]).inputs == [.op .host op] && op.w.toNat / 256 == n && op.w.toNat % 256 / 16 != 0 ||
        w == 0x0101 && op.w.toNat % 256 != 0) = true := by decide

theorem witness_NothingPresentedHoldsAllState : (presenting []).inputs = [] := rfl
theorem witness_ResetRestoresEveryElement : (presenting [.reset]).inputs = .reset :: [] := rfl

/-- The least values out of range. -/
theorem witness_WordOperandsOutOfRangeAreRefused :
    65536 ≤ (stateOf closed (operands [] .unused 0x10000#32)).op.val.toNat ∧
      2048 ≤ (stateOf closed (operands [] .unused 0x800#32)).op.val.toNat := by decide

/-- The greatest value in range. -/
theorem witness_ParityReturnsSyndromeAndOverallParity :
    (stateOf closed (operands [] .unused 0xFFFF#32)).op.val.toNat < 65536 := by decide

theorem witness_EncwReturnsTheCodewordOfItsOperand :
    (stateOf closed (operands [] .unused 0x7FF#32)).op.val = (0x7FF#11).setWidth 32 := by decide

/-- One word for each of the three cases, and one with an odd number of set bits and syndrome 0. -/
theorem witness_ChkFollowsSyndromeAndOverallParity :
    [0xAA72#16, 0xAA7A#16, 0xAA5A#16, 0xAA5B#16].map (fun w : Word16 =>
      ((stateOf closed (operands [] .unused (w.setWidth 32))).op.val == w.setWidth 32,
        ((List.range 16).filter w.getLsbD).length % 2, ((List.range 16).filter w.getLsbD).foldl (· ^^^ ·) 0 == 0)) =
      [(true, 0, false), (true, 1, false), (true, 0, true), (true, 1, true)] := by decide +kernel

theorem witness_SingleBitErrorsAreCorrected :
    (0xAA5A#32 = (encWord 0x555#11).setWidth 32) ∧ (0xAA5B#32 = (encWord 0x555#11 ^^^ (1#16 <<< 0)).setWidth 32) ∧
      (0x2A5A#32 = (encWord 0x555#11 ^^^ (1#16 <<< 15)).setWidth 32) := by decide +kernel

theorem witness_DoubleBitErrorsAreDetected :
    (stateOf closed (operands [] .unused 0x2A5B#32)).op.val =
      (encWord 0x555#11 ^^^ (1#16 <<< 0) ^^^ (1#16 <<< 15)).setWidth 32 := by decide +kernel

theorem witness_DecwExtractsTheDataBitsOfTheCheckedWord :
    (stateOf closed (operands [] .unused 0xFFFF#32)).op.val = (0xFFFF#16).setWidth 32 := by decide

theorem witness_BitsOfReadsLeastSignificantBitFirst : 7 < 8 * [0x80#8].length := by decide

theorem witness_EncodePlacesEveryDataBitInItsCodeword :
    (stateOf closed (operands (zeros 12) .unused 0#32)).fits ∧ 1 < ((zeros 12).length + 10) / 11 :=
  ⟨fits_stateOf _ _, by decide⟩

/-- A misaligned buffer, a buffer of recoverable words, a buffer with one word that is not. -/
theorem witness_DecodeChecksEveryWordAndKeepsBestEffort :
    (zeros 15).length % 16 ≠ 0 ∧
    (helloCoded.length % 16 = 0 ∧ ∀ c k, c < helloCoded.length / 16 → k < 8 →
      (checkAndCorrect (readWordLE helloCoded (16 * c + 2 * k))).unrec = false) ∧
    (checkAndCorrect (readWordLE (helloCoded.set 0 0xB8#8) (16 * 0 + 2 * 0))).unrec = true := by
  refine ⟨by decide, ⟨by decide, fun c k hc hk => ?_⟩, by decide +kernel⟩
  obtain rfl : c = 0 := Nat.lt_one_iff.1 hc
  revert k
  decide +kernel

theorem witness_DecodeInvertsEncode :
    (stateOf closed (operands hello .unused 0#32)).fits ∧ (stateOf closed (operands helloCoded .unused 0#32)).fits ∧
      helloCoded.length = 16 * ((hello.length + 10) / 11) := ⟨fits_stateOf _ _, fits_stateOf _ _, by decide⟩

theorem witness_InterleaveMovesBitJOfWordWToByteJ :
    (stateOf closed (operands helloCoded .unused 0#32)).fits ∧ (zeros 15).length % 16 ≠ 0 ∧ helloCoded.length % 16 = 0 ∧
      0 < helloCoded.length / 16 := ⟨fits_stateOf _ _, by decide, by decide, by decide⟩

theorem witness_DeinterleaveReadsBitIFromByteIMod16 :
    (stateOf closed (operands helloInterleaved .unused 0#32)).fits ∧ (zeros 17).length % 16 ≠ 0 ∧
      helloInterleaved.length % 16 = 0 ∧ 0 < helloInterleaved.length / 16 :=
  ⟨fits_stateOf _ _, by decide, by decide, by decide⟩

theorem witness_InterleaverDirectionsAreInverse : helloCoded.length % 16 = 0 ∧ helloInterleaved.length = 16 := by decide

theorem witness_OneBadBytePerInterleavedBlockIsCorrected :
    interleave (encodeBuffer hello) = some helloInterleaved ∧
      OneBadBytePerBlock helloInterleaved (helloInterleaved.set 5 0xFF#8) ∧
      (stateOf closed (operands (helloInterleaved.set 5 0xFF#8) .unused 0#32)).fits :=
  ⟨by decide +kernel, oneBadByte_set _ _ _, fits_stateOf _ _⟩

/-- Five bytes for a block built for four. -/
theorem witness_OversizeBuffersAreRefusedOrDropped :
    ¬ ({ stateOf St.reset (operands hello .unused 0#32) with maxBufLen := some 4 } : State).fits ∧
      St.reset.fsm = .idle ∧ St.reset.fsm ≠ .closed :=
  ⟨fun h => absurd (h 4 rfl) (by decide), rfl, by decide⟩

theorem witness_BuildFramesEncodesAndInterleaves :
    (stateOf St.reset (operands hello .unused 0#32)).fits ∧ (stateOf mode1 (operands hello .unused 0#32)).fits ∧
      St.reset.cfgMode = false ∧ mode1.cfgMode = true ∧
      (0#8 ≠ 1#8 ∧ 0#8 ≠ 2#8) ∧ (3#8 ≠ 1#8 ∧ 3#8 ≠ 2#8) := ⟨fits_stateOf _ _, fits_stateOf _ _, by decide⟩

theorem witness_BuiltPacketsParseBack :
    ∃ raw : Buffer, exec (.build 1#8) (stateOf mode1 (operands hello .unused 0#32)) =
        .next ((stateOf mode1 (operands hello .unused 0#32)).after mode1 { data := raw } []) ∧
      (stateOf mode1 (operands raw .unused 0#32)).fits := ⟨_, rfl, fits_stateOf _ _⟩

/-- The lengths at the ends of the ranges, and a packet in each mode. -/
theorem witness_ParseReportsFieldsAndEarliestFailure :
    (zeros 17).length < 18 ∧ (zeros 18).length % 16 ≠ 0 ∧ (zeros 33).length % 16 ≠ 0 ∧
    32 ≤ (zeros 32).length ∧ (zeros 32).length % 16 = 0 ∧ 32 ≤ helloRaw1.length ∧ helloRaw1.length % 16 = 0 ∧
    (∃ coded, deinterleave helloRaw1 = some coded) ∧ (stateOf mode1 (operands helloRaw1 .unused 0#32)).fits :=
  ⟨by decide, by decide, by decide, by decide, by decide, by decide, by decide,
    ⟨_, deinterleave_eq_some_iff.2 ⟨by decide, rfl⟩⟩, fits_stateOf _ _⟩

/-- The content's digest with one bit flipped. -/
def flipped (c : Buffer) : Vector Byte 16 := (Config.digest c).set 0 ((Config.digest c)[0] ^^^ 1#8)

theorem flipped_ne (c : Buffer) : flipped c ≠ Config.digest c := fun h => by
  have h0 := congrArg (fun v : Vector Byte 16 => v[0]) h
  simp [flipped] at h0

theorem witness_WrongDigestIsAnIntegrityMismatch :
    let msg := transmitted ((flipped (packetContent 1#8 hello)).toList ++ packetContent 1#8 hello) true
    flipped (packetContent 1#8 hello) ≠ Config.digest (packetContent 1#8 hello) ∧
      (stateOf mode1 (operands msg .unused 0#32)).fits ∧ mode1.fsm ≠ .closed :=
  ⟨flipped_ne _, fits_stateOf _ _, by decide⟩

theorem witness_SendTransmitsStoresAndArms :
    (stateOf St.reset (operands hello (addrNamed 5) 0#32)).fits ∧ St.reset.fsm = .idle ∧ (awaiting 2#32).fsm ≠ .idle ∧
      ¬ ({ stateOf St.reset (operands hello (addrNamed 5) 0#32) with maxBufLen := some 4 } : State).fits :=
  ⟨fits_stateOf _ _, rfl, by decide, fun h => absurd (h 4 rfl) (by decide)⟩

theorem witness_CloseBindTxerrListening : closed.fsm = .closed ∧ (awaiting 2#32).fsm ≠ .closed := by decide

theorem witness_TickCountsDownAndRetransmits :
    closed.fsm = .closed ∧ St.reset.timerActive = false ∧
    ((awaiting 2#32).fsm ≠ .closed ∧ (awaiting 2#32).timerActive = true ∧ 2 ≤ (awaiting 2#32).timerCount.toNat) ∧
    ((awaiting 1#32).timerCount = 1#32 ∧ (awaiting 1#32).pending = some [1#8, 2#8] ∧
      (awaiting 1#32).target = some (addrNamed 7)) :=
  ⟨rfl, rfl, by decide, rfl, rfl, rfl⟩

/-- A datagram that is too short, and one in the wrong mode (95_test_vectors.md 2.4.3). -/
theorem witness_RxIsIgnoredInClosedAndDropsInvalidDatagrams :
    (stateOf St.reset (operands helloRaw1 (addrNamed 4) 0#32)).fits ∧ St.reset.fsm ≠ .closed ∧
      (parseRaw Config.digest helloRaw1 false).valid = false ∧ (zeros 17).length < 18 :=
  ⟨fits_stateOf _ _, by decide, by decide +kernel, by decide⟩

theorem witness_RxDataDeliversThenAcknowledges :
    let s := stateOf (awaiting 2#32) (operands (buildRaw Config.digest .data hello false) (addrNamed 4) 0#32)
    s.st.fsm ≠ .closed ∧ s.op.data = buildRaw Config.digest .data hello s.st.cfgMode ∧ s.fits :=
  ⟨by decide, rfl, fits_stateOf _ _⟩

theorem witness_RxAcknowledgementEndsTheOutstandingSend :
    let s := stateOf (awaiting 2#32) (operands (buildRaw Config.digest .ack [] false) (addrNamed 4) 0#32)
    s.op.data = buildRaw Config.digest .ack [] s.st.cfgMode ∧ s.fits ∧ s.st.fsm = .awaitingAck ∧
      ({ s with st := St.reset } : State).st.fsm = .idle := ⟨rfl, fits_stateOf _ _, rfl, rfl⟩

theorem witness_ValidPacketsOfUnknownTypeParseButAreDropped :
    let s := stateOf mode1 (operands (sealedPacket 3#8 hello true) (addrNamed 4) 0#32)
    3#8 ≠ 1#8 ∧ 3#8 ≠ 2#8 ∧ s.op.data = sealedPacket 3#8 hello s.st.cfgMode ∧ s.fits ∧ s.st.fsm ≠ .closed :=
  ⟨by decide, by decide, rfl, fits_stateOf _ _, by decide⟩

theorem witness_InterleavedPacketSurvivesOneBadBytePerBlock :
    let s := stateOf mode1 (operands ((buildRaw Config.digest .data hello true).set 5 0#8) (addrNamed 4) 0#32)
    s.st.fsm ≠ .closed ∧ s.st.cfgMode = true ∧
      OneBadBytePerBlock (buildRaw Config.digest .data hello true) s.op.data ∧ s.fits :=
  ⟨by decide, rfl, oneBadByte_set _ _ _, fits_stateOf _ _⟩

theorem witness_RdregReturnsTheRegisterMap :
    [0x1800#16, 0x180F#16, 0x1810#16, 0x18FF#16].map (fun w : Word16 => (w.toNat / 256, decide (w.toNat % 256 < 16))) =
      [(0x18, true), (0x18, true), (0x18, false), (0x18, false)] := by decide

theorem witness_CtrlWriteNeedsIdleAndZeroReservedBits :
    (awaiting 2#32).fsm ≠ .idle ∧ St.reset.fsm = .idle ∧
      2 ≤ (stateOf St.reset (operands [] .unused 2#32)).op.val.toNat ∧
      (stateOf St.reset (operands [] .unused 0#32)).op.val = 0#32 ∧
      (stateOf St.reset (operands [] .unused 1#32)).op.val = 1#32 := by decide

theorem witness_TimeoutWriteAffectsOnlyLaterSends :
    let s := stateOf St.reset (operands [] .unused 1#32)
    (∃ t, exec (.wrreg 1) s = .next t ∧ { t with op := operands hello (addrNamed 5) 0#32 }.fits) ∧ s.op.val ≠ 0#32 ∧
      s.st.fsm = .idle ∧ (stateOf closed (operands [] .unused 0#32)).op.val = 0#32 :=
  ⟨⟨_, rfl, fun _ h => nomatch h⟩, by decide, rfl, rfl⟩

theorem witness_LastErrWriteClearsAndOtherWritesAreRefused :
    [0x1900#16, 0x190F#16, 0x1910#16, 0x19FF#16].map (fun w : Word16 => (w.toNat / 256, decide (w.toNat % 256 < 16))) =
      [(0x19, true), (0x19, true), (0x19, false), (0x19, false)] := by decide

/-- A legal state that is not the one after reset. -/
theorem witness_legal : (stateOf (awaiting 3#32) (operands [] .unused 0#32)).Legal := by decide

/-- Eight different steps to a next state: an operation of each kind, an illegal word, a reset, nothing presented. -/
theorem witness_EveryStepKeepsTheSessionInvariants :
    [[.op .timebase (word 0x2100#16)], [.op .host (word 0x1100#16)], [.op .transport (word 0x2200#16)],
      [.op .host (word 0x1803#16)], [.op .host (word 0x1900#16)], [.op .host (word 0xFFFF#16)], [.reset], []].all
      (fun inputs => (nextOf (step { stateOf (awaiting 3#32) (operands [] .unused 0#32) with inputs := inputs })).isSome) =
      true := by decide +kernel

theorem witness_OneResponseAndOrderedEventsPerOperation :
    ∃ t, step (presenting [.op .host (word 0x1200#16)]) = .next t := ⟨_, rfl⟩

theorem witness_LastErrIsStickyAndRecordsEveryFailure :
    (∃ t, exec .bind (stateOf closed (operands [] .unused 0#32)) = .next t) ∧
      (∃ t, exec (.wrreg 3) (stateOf closed (operands [] .unused 0#32)) = .next t) ∧ decode (word 0xFFFF#16).w = none :=
  ⟨⟨_, rfl⟩, ⟨_, rfl⟩, by decide⟩

/-- A raise outside the exceptions. -/
theorem witness_ErrorsArePrecise :
    ∃ t r, exec .bind (stateOf closed (operands [] .unused 0#32)) = .next t ∧ t.resp = some r ∧ r.status ≠ .ok ∧
      ¬ (Instr.bind ∈ [Instr.chk, .decw, .decode, .parse] ∧ r.status = .codecUncorrectable) ∧
      Instr.bind ≠ .parse ∧ Instr.bind ≠ .rx ∧ Instr.bind ≠ .txerr :=
  ⟨_, _, rfl, rfl, by decide⟩

theorem witness_OperationsReportOnlyTheirStatuses :
    ∃ t r, exec (.wrreg 0) (stateOf closed (operands [] .unused 0#32)) = .next t ∧ t.resp = some r ∧ r.status ≠ .ok :=
  ⟨_, _, rfl, rfl, by decide⟩

theorem witness_CountersCountTheirEvents :
    (∃ t, exec .tick (stateOf (awaiting 1#32) (operands [] .unused 0#32)) = .next t) ∧
      (∃ t, step (presenting [.op .host (word 0x0000#16)]) = .next t) ∧
      ∃ t, step (presenting [.reset]) = .next t := ⟨⟨_, rfl⟩, ⟨_, rfl⟩, _, rfl⟩

theorem witness_PendingAndTargetAreWrittenTogetherByFourOperations :
    (∃ t, exec .send (stateOf St.reset (operands hello (addrNamed 5) 0#32)) = .next t) ∧
      ∃ t, exec .close (stateOf (awaiting 2#32) (operands [] .unused 0#32)) = .next t := ⟨⟨_, rfl⟩, _, rfl⟩

theorem witness_OnePacketOneModeWhileAwaitingAck :
    ∃ t, step { stateOf (awaiting 3#32) (operands [] .unused 0#32) with inputs := [.op .timebase (word 0x2100#16)] } =
        .next t ∧ t.st.fsm = .awaitingAck := ⟨_, rfl, rfl⟩

theorem witness_ClosedIsTerminalAndSilent :
    let s : State := { stateOf closed (operands [] .unused 0#32) with inputs := [.op .host (word 0x1000#16)] }
    s.st.fsm = .closed ∧ s.noResetAhead := by decide

/-- Two intervals of three ticks, and one tick short of an interval. -/
theorem witness_RetransmissionsRecurWithNoCap :
    let s : State := { stateOf (awaiting 3#32) (operands [] .unused 0#32) with inputs := tickInputs (2 * 3) }
    (s.st.fsm ≠ .closed ∧ s.st.timerActive = true ∧ s.st.pending = some [1#8, 2#8] ∧ s.st.target = some (addrNamed 7) ∧
      s.st.timerCount.toNat = 3 ∧ s.st.sessInterval.toNat = 3 ∧ s.inputs = tickInputs (2 * 3) ++ []) ∧
      ({ s with inputs := tickInputs (3 - 1) } : State).inputs = tickInputs (3 - 1) ++ [] :=
  ⟨⟨by decide, rfl, rfl, rfl, rfl, rfl, rfl⟩, rfl⟩

theorem witness_AcknowledgementAndTickRace :
    let ack : Op := { w := 0x2000#16, data := buildRaw Config.digest .ack [] false, addr := (addrNamed 4) }
    let s : State := { stateOf (awaiting 1#32) ack with inputs := [.op .transport ack, .op .timebase (word 0x2100#16)] }
    s.st.fsm = .awaitingAck ∧ s.st.timerActive = true ∧ s.st.timerCount = 1#32 ∧ s.st.pending = some [1#8, 2#8] ∧
      s.st.target = some (addrNamed 7) ∧ s.maxBufLen = none ∧
      s.inputs = .op .transport ack :: .op .timebase (word 0x2100#16) :: [] := ⟨rfl, rfl, rfl, rfl, rfl, rfl, rfl⟩

theorem witness_SendDeliverAcknowledgeCompletes :
    let a := stateOf St.reset (operands hello (addrNamed 5) 0#32)
    let b := stateOf (awaiting 2#32) (operands [] .unused 0#32)
    a.st.fsm = .idle ∧ b.st.fsm ≠ .closed ∧ a.st.cfgMode = b.st.cfgMode ∧ a.fits ∧ a.maxBufLen = none ∧
      b.maxBufLen = none := ⟨rfl, by decide, rfl, fits_stateOf _ _, rfl, rfl⟩

end Sys2Proof.Tests
end

/-!
The family of 10_state.md: the reset state (R58) and the diagnostic counters (R42).
-/

namespace Sys2Proof.Machine

open Sys2Proof

section StepLaws

variable {s : State} {rest : List Input}

/-- 70_reset_and_hazards.md R310: a step that finds a reset event takes it. -/
theorem step_eq_takeReset (h : s.inputs = .reset :: rest) : step s = .next (s.takeReset rest) := by
  simp [step, fetch, h]

/-- 30_encoding.md R94, R95: a step that finds an illegal word raises `IllegalOpcode`. -/
theorem step_eq_afterRaise_of_illegal {port : Port} {op : Op} (h : s.inputs = .op port op :: rest)
    (hd : decode op.w = none) : step s = .next ((s.accept op rest).afterRaise .illegalOpcode) := by
  simp [step, fetch, h, hd, raise_eq]

end StepLaws

/-- Settles O7: the model's reset state has the values of the table, and a step that finds a reset event takes it. -/
theorem resetRestoresEveryElement : Obligations.ResetRestoresEveryElement :=
  ⟨rfl, fun _ _ h => step_eq_takeReset h⟩

/-- The four diagnostic counters of two states agree (10_state.md R42). -/
def St.SameCounters (st st' : St) : Prop :=
  st'.cntTx = st.cntTx ∧ st'.cntRetx = st.cntRetx ∧ st'.cntDeliver = st.cntDeliver ∧ st'.cntDrop = st.cntDrop

theorem St.sameCounters_refl (st : St) : st.SameCounters st := ⟨rfl, rfl, rfl, rfl⟩

/-- 44_socket.md R203, R209: closing the session counts nothing. -/
theorem St.sameCounters_shut (st : St) : st.SameCounters st.shut := ⟨rfl, rfl, rfl, rfl⟩

/-- 60_exceptions.md R272: an error counts nothing by itself. -/
theorem St.sameCounters_withError (st : St) (x : Status) : st.SameCounters (st.withError x) := ⟨rfl, rfl, rfl, rfl⟩

/-- 45_registers.md R254: no register write reaches a counter. -/
theorem writeRegister_sameCounters {st st' : St} {reg : Nat} {v : Word32} (h : writeRegister st reg v = .ok st') :
    st.SameCounters st' := by
  obtain ⟨-, -, rfl⟩ | ⟨-, -, rfl⟩ | ⟨-, rfl⟩ := writeRegister_ok_cases h <;> exact ⟨rfl, rfl, rfl, rfl⟩

/-- 43_framer.md R176: only a valid packet has the status `OK`. -/
theorem parseStatus_eq_ok_iff {hvalid dmatch : Bool} : parseStatus hvalid dmatch = .ok ↔ (hvalid && dmatch) = true := by
  cases hvalid <;> cases dmatch <;> decide

/-- 43_framer.md R174, R176: a parse that is not valid reports an error. -/
theorem parseRaw_status_ne_ok {digest : Buffer → Vector Byte 16} {raw : Buffer} {mode : Bool}
    (h : (parseRaw digest raw mode).valid = false) : (parseRaw digest raw mode).status ≠ .ok := by
  have hfail : Parsed.framingFailure.status ≠ .ok := by decide
  unfold parseRaw at h ⊢
  split
  · exact hfail
  split
  · exact hfail
  rename_i hlen _ coded hcoded
  rw [if_neg hlen, hcoded] at h
  dsimp only at h ⊢
  split
  · exact hfail
  rename_i hframed
  rw [if_neg hframed] at h
  intro hok
  have hvalid := parseStatus_eq_ok_iff.1 hok
  exact absurd (h.symm.trans hvalid) Bool.false_ne_true

section Counters

/-- The rule of 10_state.md R42 for the operation `i`, begun in `s` with the outcome `o`: each counter goes up by the
events of its kind. -/
def CountsEvents (i : Instr) (s : State) (o : Result) : Prop :=
  ∀ t, o = .next t →
    t.st.cntTx = s.st.cntTx + BitVec.ofNat 32 (txEvents t.outs) ∧
    t.st.cntDeliver = s.st.cntDeliver + BitVec.ofNat 32 (deliverEvents t.outs) ∧
    t.st.cntRetx = s.st.cntRetx + (if i = .tick then BitVec.ofNat 32 (txEvents t.outs) else 0#32) ∧
    t.st.cntDrop = s.st.cntDrop + (if i = .rx ∧ (t.resp.map Resp.status) ≠ some .ok then 1#32 else 0#32)

variable {i : Instr} {s : State}

/-- What an operation that completes has to count. -/
theorem complete_countsEvents_iff {st : St} {resp : Resp} {outs : List Event} :
    CountsEvents i s (complete s st resp outs) ↔
      st.cntTx = s.st.cntTx + BitVec.ofNat 32 (txEvents outs) ∧
      st.cntDeliver = s.st.cntDeliver + BitVec.ofNat 32 (deliverEvents outs) ∧
      st.cntRetx = s.st.cntRetx + (if i = .tick then BitVec.ofNat 32 (txEvents outs) else 0#32) ∧
      st.cntDrop = s.st.cntDrop + (if i = .rx ∧ resp.status ≠ .ok then 1#32 else 0#32) := by
  simp [CountsEvents]

/-- An operation that neither transmits, delivers nor drops leaves the counters alone. -/
theorem complete_countsEvents_of_sameCounters {st : St} {resp : Resp} {outs : List Event}
    (hst : s.st.SameCounters st) (htx : txEvents outs = 0) (hdeliver : deliverEvents outs = 0)
    (hdrop : i = .rx → resp.status = .ok) : CountsEvents i s (complete s st resp outs) := by
  obtain ⟨h1, h2, h3, h4⟩ := hst
  have hno : ¬ (i = .rx ∧ resp.status ≠ .ok) := fun ⟨hi, hs⟩ => hs (hdrop hi)
  rw [complete_countsEvents_iff, htx, hdeliver, if_neg hno]
  simp [h1, h2, h3, h4]

theorem answer_countsEvents {resp : Resp} (hdrop : i = .rx → resp.status = .ok) :
    CountsEvents i s (answer s resp) :=
  complete_countsEvents_of_sameCounters s.st.sameCounters_refl rfl rfl hdrop

/-- The status counts nothing outside `RX`. -/
theorem answer_countsEvents_of_ne_rx {resp : Resp} (hi : i ≠ .rx) : CountsEvents i s (answer s resp) :=
  answer_countsEvents fun h => absurd h hi

/-- `RX` drops where other operations raise (44_socket.md R205). -/
theorem raise_countsEvents {x : Status} (hi : i ≠ .rx) : CountsEvents i s (raise s x) :=
  answer_countsEvents_of_ne_rx hi

theorem withWord_countsEvents {k : Word16 → Result} (hi : i ≠ .rx) (h : ∀ w, CountsEvents i s (k w)) :
    CountsEvents i s (withWord s k) := by
  obtain e | ⟨w, -, e⟩ := withWord_cases s k <;> rw [e]
  · exact raise_countsEvents hi
  · exact h w

theorem withData11_countsEvents {k : Data11 → Result} (hi : i ≠ .rx) (h : ∀ d, CountsEvents i s (k d)) :
    CountsEvents i s (withData11 s k) := by
  obtain e | ⟨d, -, e⟩ := withData11_cases s k <;> rw [e]
  · exact raise_countsEvents hi
  · exact h d

theorem withBuffer_countsEvents {k : Buffer → Result} (hi : i ≠ .rx) (h : ∀ b, CountsEvents i s (k b)) :
    CountsEvents i s (withBuffer s k) := by
  obtain ⟨-, e⟩ | ⟨-, e⟩ := withBuffer_cases s k <;> rw [e]
  · exact raise_countsEvents hi
  · exact h _

theorem answerBlocks_countsEvents (hi : i ≠ .rx) (out : Option Buffer) : CountsEvents i s (answerBlocks s out) := by
  cases out with
  | none => exact raise_countsEvents hi
  | some b => exact answer_countsEvents_of_ne_rx hi

/-- 44_socket.md R202: `SEND` transmits one packet and counts it. -/
theorem execSend_countsEvents : CountsEvents .send s (execSend s) := by
  unfold execSend
  split
  · exact raise_countsEvents (by decide)
  · exact withBuffer_countsEvents (by decide) fun _ =>
      complete_countsEvents_iff.2 (by simp [txEvents, deliverEvents])

/-- 44_socket.md R208: a retransmission is counted in both `cnt_tx` and `cnt_retx`. -/
theorem retransmit_countsEvents : CountsEvents .tick s (retransmit s) := fun t h => by
  obtain ⟨bytes, addr, -, -, rfl⟩ := retransmit_next_iff.1 h
  simp [txEvents, deliverEvents]

/-- 44_socket.md R208: a `TICK` that does not expire the timer counts nothing. -/
theorem execTick_countsEvents : CountsEvents .tick s (execTick s) := by
  obtain ⟨-, e⟩ | ⟨-, -, -, e⟩ | ⟨-, -, -, e⟩ | ⟨-, -, -, -, e⟩ := execTick_cases s <;> rw [e]
  · exact answer_countsEvents fun h => nomatch h
  · exact fun _ h => nomatch h
  · exact retransmit_countsEvents
  · exact complete_countsEvents_of_sameCounters ⟨rfl, rfl, rfl, rfl⟩ rfl rfl fun h => nomatch h

/-- 44_socket.md R205: a dropped datagram is counted once. -/
theorem dropDatagram_countsEvents {resp : Resp} {x : Status} (hx : x ≠ .ok) :
    CountsEvents .rx s (dropDatagram s resp x) :=
  complete_countsEvents_iff.2 (by simp [txEvents, deliverEvents, hx])

/-- 44_socket.md R206: an Acknowledgement is taken with nothing to count. -/
theorem acceptAck_countsEvents {resp : Resp} (hok : resp.status = .ok) : CountsEvents .rx s (acceptAck s resp) := by
  unfold acceptAck
  split
  · exact complete_countsEvents_of_sameCounters ⟨rfl, rfl, rfl, rfl⟩ rfl rfl fun _ => hok
  · exact answer_countsEvents fun _ => hok

/-- 44_socket.md R207: a Data packet is one delivery and one transmitted Acknowledgement. -/
theorem acceptData_countsEvents {resp : Resp} (hok : resp.status = .ok) (msg : Buffer) :
    CountsEvents .rx s (acceptData s resp msg) :=
  complete_countsEvents_iff.2 (by simp [txEvents, deliverEvents, hok])

/-- 44_socket.md R205, for a parse that reports an error unless it is valid. -/
theorem acceptParsed_countsEvents {r : Parsed} (hr : r.valid = false → r.status ≠ .ok) :
    CountsEvents .rx s (acceptParsed s r) := by
  have hflags : r.flags.status = .ok := rfl
  unfold acceptParsed
  split
  · split
    · exact acceptAck_countsEvents hflags
    · exact acceptData_countsEvents hflags r.msg
    · exact dropDatagram_countsEvents (by decide)
  · next hv => exact dropDatagram_countsEvents (hr (Bool.eq_false_iff.2 hv))

theorem execRx_countsEvents : CountsEvents .rx s (execRx s) := by
  obtain ⟨-, e⟩ | ⟨-, -, e⟩ | ⟨-, -, e⟩ := execRx_cases s <;> rw [e]
  · exact answer_countsEvents fun _ => rfl
  · exact dropDatagram_countsEvents (by decide)
  · exact acceptParsed_countsEvents parseRaw_status_ne_ok

/-- Every operation of 30_encoding.md R93 counts its events (10_state.md R42). -/
theorem exec_countsEvents (i : Instr) (s : State) : CountsEvents i s (exec i s) := by
  cases i with
  | parity | chk | decw =>
    exact withWord_countsEvents (by decide) fun _ => answer_countsEvents_of_ne_rx (by decide)
  | encw => exact withData11_countsEvents (by decide) fun _ => answer_countsEvents_of_ne_rx (by decide)
  | encode | decode | parse =>
    exact withBuffer_countsEvents (by decide) fun _ => answer_countsEvents_of_ne_rx (by decide)
  | interleave | deinterleave =>
    exact withBuffer_countsEvents (by decide) fun _ => answerBlocks_countsEvents (by decide) _
  | build ptype =>
    have hi : Instr.build ptype ≠ .rx := nofun
    simp only [exec, execBuild]
    refine withBuffer_countsEvents hi fun b => ?_
    cases PacketType.ofByte ptype with
    | none => exact raise_countsEvents hi
    | some t => exact answer_countsEvents_of_ne_rx hi
  | send => exact execSend_countsEvents
  | close =>
    simp only [exec, execClose]
    split
    · exact answer_countsEvents nofun
    · exact complete_countsEvents_of_sameCounters s.st.sameCounters_shut rfl rfl nofun
  | bind =>
    simp only [exec, execBind]
    split
    · exact raise_countsEvents nofun
    · exact complete_countsEvents_of_sameCounters s.st.sameCounters_refl rfl rfl nofun
  | rdreg reg =>
    simp only [exec, execRdreg]
    split
    · exact raise_countsEvents nofun
    · exact answer_countsEvents nofun
  | wrreg reg =>
    simp only [exec, execWrreg]
    split
    · exact raise_countsEvents nofun
    · next hw => exact complete_countsEvents_of_sameCounters (writeRegister_sameCounters hw) rfl rfl nofun
  | rx => exact execRx_countsEvents
  | tick => exact execTick_countsEvents
  | txerr =>
    simp only [exec, execTxerr]
    split
    · exact answer_countsEvents nofun
    · exact complete_countsEvents_of_sameCounters s.st.sameCounters_shut rfl rfl nofun
  | listening =>
    simp only [exec, execListening]
    split
    · exact answer_countsEvents nofun
    · exact complete_countsEvents_of_sameCounters s.st.sameCounters_refl rfl rfl nofun

end Counters

/-- Settles O52: every operation counts its events, an illegal word is a raise and a reset clears the counters. -/
theorem countersCountTheirEvents : Obligations.CountersCountTheirEvents := by
  refine ⟨exec_countsEvents, fun s t port op rest hin hd hstep => ?_, fun s t rest hin hstep => ?_⟩
  · rw [step_eq_afterRaise_of_illegal hin hd] at hstep
    cases hstep
    exact s.st.sameCounters_withError .illegalOpcode
  · rw [step_eq_takeReset hin] at hstep
    cases hstep
    exact ⟨rfl, rfl, rfl, rfl⟩

end Sys2Proof.Machine

/-!
The family of 20_memory.md: the bit order of buffers (R71), and the operations that change nothing but `last_err` and
repeat (R80).
-/

namespace Sys2Proof.Machine

open Sys2Proof

section BitOrder

@[simp] theorem bitsOf_length (b : Buffer) : (bitsOf b).length = 8 * b.length := by
  induction b with
  | nil => rfl
  | cons x b ih =>
    rw [bitsOf_cons, List.length_append, bitsOfByte_length, ih, List.length_cons]
    omega

theorem bitsOfByte_getElem? {x : Byte} {n : Nat} (h : n < 8) : (bitsOfByte x)[n]? = some (x.getLsbD n) := by
  simp [bitsOfByte, h]

/-- 20_memory.md R71, at every index: beyond the last byte there is no bit. -/
theorem bitsOf_getElem? (b : Buffer) (n : Nat) : (bitsOf b)[n]? = b[n / 8]?.map (·.getLsbD (n % 8)) := by
  induction b generalizing n with
  | nil => rfl
  | cons x b ih =>
    rw [bitsOf_cons]
    by_cases h : n < 8
    · rw [List.getElem?_append_left (by simpa using h), bitsOfByte_getElem? h, Nat.div_eq_of_lt h, Nat.mod_eq_of_lt h]
      rfl
    · have hdiv : n / 8 = (n - 8) / 8 + 1 := by omega
      have hmod : n % 8 = (n - 8) % 8 := by omega
      rw [List.getElem?_append_right (by simpa using h), bitsOfByte_length, ih, hdiv, hmod, List.getElem?_cons_succ]

end BitOrder

/-- Settles O15: the bits of a buffer, byte by byte. -/
theorem bitsOfReadsLeastSignificantBitFirst : Obligations.BitsOfReadsLeastSignificantBitFirst := fun b =>
  ⟨bitsOf_length b, fun n h => by
    rw [bitsOf_getElem?, List.getElem?_eq_getElem (by omega)]
    rfl⟩

section Repetition

/-- Two machines hold the same operands, the same length limit and the same mode: all that a codec, interleaver or
framer operation reads (20_memory.md R80). -/
structure State.SameOperands (s s' : State) : Prop where
  op : s'.op = s.op
  maxBufLen : s'.maxBufLen = s.maxBufLen
  cfgMode : s'.st.cfgMode = s.st.cfgMode

theorem State.SameOperands.oversize {s s' : State} (h : s.SameOperands s') : s'.oversize = s.oversize := by
  rw [State.oversize, State.oversize, h.op, h.maxBufLen]

/-- Every machine with the operands of `s` gets the same response from `f`, which does nothing else. -/
def AnswersFromOperands (s : State) (f : State → Result) : Prop :=
  ∃ r, ∀ s', s.SameOperands s' → f s' = answer s' r

/-- `f` only answers, and gives the same response once more on the machine it leaves. -/
def RepeatsItsAnswer (s : State) (f : State → Result) : Prop :=
  ∃ r, f s = answer s r ∧ f (s.commit s.st r []) = answer (s.commit s.st r []) r

variable {s : State}

theorem State.sameOperands_refl (s : State) : s.SameOperands s := ⟨rfl, rfl, rfl⟩

/-- A response, recorded in `last_err` or not, leaves the operands as they are. -/
theorem State.sameOperands_commit (s : State) (r : Resp) : s.SameOperands (s.commit s.st r []) := ⟨rfl, rfl, rfl⟩

theorem AnswersFromOperands.repeatsItsAnswer {f : State → Result} (h : AnswersFromOperands s f) :
    RepeatsItsAnswer s f := by
  obtain ⟨r, hr⟩ := h
  exact ⟨r, hr s s.sameOperands_refl, hr _ (s.sameOperands_commit r)⟩

/-- A response may depend on the mode, which an answer leaves alone. -/
theorem answer_cfgMode_answersFromOperands (r : Bool → Resp) :
    AnswersFromOperands s fun s' => answer s' (r s'.st.cfgMode) :=
  ⟨r s.st.cfgMode, fun s' hs => congrArg (fun mode => answer s' (r mode)) hs.cfgMode⟩

theorem answer_answersFromOperands (r : Resp) : AnswersFromOperands s fun s' => answer s' r :=
  answer_cfgMode_answersFromOperands fun _ => r

theorem raise_answersFromOperands (x : Status) : AnswersFromOperands s fun s' => raise s' x :=
  answer_answersFromOperands _

theorem withWord_of_none {k : Word16 → Result} (h : wordOperand s.op.val = none) :
    withWord s k = raise s .invalidArgument := by
  simp [withWord, h]

theorem withWord_of_some {k : Word16 → Result} {w : Word16} (h : wordOperand s.op.val = some w) :
    withWord s k = k w := by
  simp [withWord, h]

theorem withData11_of_none {k : Data11 → Result} (h : dataOperand s.op.val = none) :
    withData11 s k = raise s .invalidArgument := by
  simp [withData11, h]

theorem withData11_of_some {k : Data11 → Result} {d : Data11} (h : dataOperand s.op.val = some d) :
    withData11 s k = k d := by
  simp [withData11, h]

theorem withBuffer_of_oversize {k : Buffer → Result} (h : s.oversize = true) :
    withBuffer s k = raise s .oversize := by
  simp [withBuffer, h]

theorem withBuffer_of_not_oversize {k : Buffer → Result} (h : s.oversize = false) :
    withBuffer s k = k s.op.data := by
  simp [withBuffer, h]

/-- 41_hamming.md R117: the range check reads the operand alone. -/
theorem withWord_answersFromOperands {k : State → Word16 → Result}
    (h : ∀ w, AnswersFromOperands s fun s' => k s' w) : AnswersFromOperands s fun s' => withWord s' (k s') := by
  cases hv : wordOperand s.op.val with
  | none => exact ⟨_, fun s' hs => withWord_of_none (hs.op ▸ hv)⟩
  | some w =>
    obtain ⟨r, hr⟩ := h w
    exact ⟨r, fun s' hs => (withWord_of_some (hs.op ▸ hv)).trans (hr s' hs)⟩

/-- 41_hamming.md R117: the range check reads the operand alone. -/
theorem withData11_answersFromOperands {k : State → Data11 → Result}
    (h : ∀ d, AnswersFromOperands s fun s' => k s' d) : AnswersFromOperands s fun s' => withData11 s' (k s') := by
  cases hv : dataOperand s.op.val with
  | none => exact ⟨_, fun s' hs => withData11_of_none (hs.op ▸ hv)⟩
  | some d =>
    obtain ⟨r, hr⟩ := h d
    exact ⟨r, fun s' hs => (withData11_of_some (hs.op ▸ hv)).trans (hr s' hs)⟩

/-- 30_encoding.md R99, point 4: the length check reads the operand and the limit alone. -/
theorem withBuffer_answersFromOperands {k : State → Buffer → Result}
    (h : ∀ b, AnswersFromOperands s fun s' => k s' b) : AnswersFromOperands s fun s' => withBuffer s' (k s') := by
  cases ho : s.oversize with
  | true => exact ⟨_, fun s' hs => withBuffer_of_oversize (hs.oversize.trans ho)⟩
  | false =>
    obtain ⟨r, hr⟩ := h s.op.data
    refine ⟨r, fun s' hs => (withBuffer_of_not_oversize (hs.oversize.trans ho)).trans ?_⟩
    rw [hs.op]
    exact hr s' hs

theorem answerBlocks_answersFromOperands (out : Option Buffer) :
    AnswersFromOperands s fun s' => answerBlocks s' out := by
  cases out with
  | none => exact raise_answersFromOperands _
  | some b => exact answer_answersFromOperands _

theorem execEncode_answersFromOperands : AnswersFromOperands s execEncode :=
  withBuffer_answersFromOperands fun _ => answer_answersFromOperands _

theorem execDecode_answersFromOperands : AnswersFromOperands s execDecode :=
  withBuffer_answersFromOperands fun _ => answer_answersFromOperands _

/-- 43_framer.md R178: the packet is built from the type, the message and the mode. -/
theorem execBuild_answersFromOperands (ptype : Byte) : AnswersFromOperands s (execBuild ptype) :=
  withBuffer_answersFromOperands fun b => by
    cases PacketType.ofByte ptype with
    | none => exact raise_answersFromOperands _
    | some t => exact answer_cfgMode_answersFromOperands fun mode => { data := buildRaw Config.digest t b mode }

/-- 43_framer.md R179: a parse depends on the bytes and the mode. -/
theorem execParse_answersFromOperands : AnswersFromOperands s execParse :=
  withBuffer_answersFromOperands fun b => answer_cfgMode_answersFromOperands fun mode =>
    let r := parseRaw Config.digest b mode
    { r.flags with status := r.status, data := r.msg }

/-- The codec, interleaver and framer operations with no immediate (20_memory.md R80). -/
theorem exec_answersFromOperands {i : Instr}
    (hi : i ∈ [Instr.parity, .encw, .chk, .decw, .encode, .decode, .interleave, .deinterleave, .parse]) :
    AnswersFromOperands s (exec i) := by
  cases i with
  | parity | chk | decw => exact withWord_answersFromOperands fun _ => answer_answersFromOperands _
  | encw => exact withData11_answersFromOperands fun _ => answer_answersFromOperands _
  | encode => exact execEncode_answersFromOperands
  | decode => exact execDecode_answersFromOperands
  | interleave | deinterleave => exact withBuffer_answersFromOperands fun _ => answerBlocks_answersFromOperands _
  | parse => exact execParse_answersFromOperands
  | build | send | close | bind | rdreg | wrreg | rx | tick | txerr | listening => simp at hi

/-- 45_registers.md R250: which numbers name no register does not depend on the state. -/
theorem readRegister_eq_none_iff {st : St} {reg : Nat} : readRegister st reg = none ↔ 10 ≤ reg := by
  unfold readRegister
  split <;> grind

/-- 45_registers.md R250: a read of a register records no error, and a refused read is refused again. -/
theorem execRdreg_repeatsItsAnswer (reg : Nat) : RepeatsItsAnswer s (execRdreg reg) := by
  cases hv : readRegister s.st reg with
  | none =>
    have habsent (st : St) : readRegister st reg = none := readRegister_eq_none_iff.2 (readRegister_eq_none_iff.1 hv)
    exact ⟨_, by rw [execRdreg, hv]; rfl, by rw [execRdreg, habsent]; rfl⟩
  | some v => exact ⟨{ val := v }, by rw [execRdreg, hv], by rw [execRdreg, State.commit_st, St.record_ok, hv]⟩

theorem St.record_eq_ite (st : St) (x : Status) : st.record x = if x = .ok then st else st.withError x := by
  split
  · next h => rw [h, St.record_ok]
  · next h => exact St.record_error st h

/-- 60_exceptions.md R273: recording a status twice is recording it once. -/
theorem St.record_record (st : St) (x : Status) : (st.record x).record x = st.record x := by
  by_cases h : x = .ok
  · rw [h, St.record_ok, St.record_ok]
  · simp only [St.record_error _ h, St.withError]

/-- A response given once more leaves the machine as the first one left it. -/
theorem State.commit_commit (s : State) (r : Resp) :
    (s.commit s.st r []).commit (s.commit s.st r []).st r [] = s.commit s.st r [] := by
  simp only [State.commit, St.record_record, List.append_nil]

end Repetition

/-- Settles O51: what each operation reads, its answer leaves as it was. -/
theorem pureOperationsTouchOnlyLastErrAndRepeat : Obligations.PureOperationsTouchOnlyLastErrAndRepeat := by
  intro i s hi
  have hrepeats : RepeatsItsAnswer s (exec i) := by
    obtain hi | ⟨ptype, rfl⟩ | ⟨reg, rfl⟩ := hi
    · exact (exec_answersFromOperands hi).repeatsItsAnswer
    · exact (execBuild_answersFromOperands ptype).repeatsItsAnswer
    · exact execRdreg_repeatsItsAnswer reg
  obtain ⟨r, hfirst, hagain⟩ := hrepeats
  refine ⟨r, ?_⟩
  rw [← St.record_eq_ite, ← State.commit_eq_after]
  exact ⟨hfirst, hagain.trans (congrArg _ (s.commit_commit r))⟩

end Sys2Proof.Machine

/-!
The family of 30_encoding.md: the illegal opcodes (R94), the reserved immediate bits and the legal words (R95).
-/

namespace Sys2Proof.Machine

open Sys2Proof

section LegalWords

/-- The opcodes whose immediate must be zero: all assigned ones but those of `BUILD`, `RDREG` and `WRREG`
(30_encoding.md R95). -/
def fixedOpcodes : List Byte :=
  [0x01#8, 0x02#8, 0x03#8, 0x04#8, 0x05#8, 0x06#8, 0x07#8, 0x08#8, 0x0A#8, 0x10#8, 0x11#8, 0x12#8, 0x20#8, 0x21#8, 0x22#8,
    0x23#8]

/-- The opcodes of `RDREG` and `WRREG`, whose upper immediate nibble must be zero (30_encoding.md R95). -/
def registerOpcodes : List Byte := [0x18#8, 0x19#8]

theorem mem_assignedOpcodes_iff {b : Byte} :
    b ∈ assignedOpcodes ↔ b ∈ fixedOpcodes ∨ b = 0x09#8 ∨ b ∈ registerOpcodes := by
  have hperm : assignedOpcodes.Perm (fixedOpcodes ++ 0x09#8 :: registerOpcodes) := by decide
  rw [hperm.mem_iff, List.mem_append, List.mem_cons]

/-- 30_encoding.md R94: the opcodes outside the opcode map, as the ranges it lists. -/
theorem not_mem_assignedOpcodes_iff {b : Byte} : b ∉ assignedOpcodes ↔
    b.toNat = 0x00 ∨ (0x0B ≤ b.toNat ∧ b.toNat ≤ 0x0F) ∨ (0x13 ≤ b.toNat ∧ b.toNat ≤ 0x17) ∨
      (0x1A ≤ b.toNat ∧ b.toNat ≤ 0x1F) ∨ 0x24 ≤ b.toNat := by
  simp only [assignedOpcodes, List.mem_cons, List.not_mem_nil, or_false, ← BitVec.toNat_inj, BitVec.toNat_ofNat]
  omega

variable {w : Word16}

theorem decode_of_mem_fixedOpcodes (h : opcodeOf w ∈ fixedOpcodes) : ∃ i, decode w = fixedForm (imm8Of w) i := by
  simp only [fixedOpcodes, List.mem_cons, List.not_mem_nil, or_false] at h
  obtain h | h | h | h | h | h | h | h | h | h | h | h | h | h | h | h := h
  · exact ⟨_, decode_opcode_parity h⟩
  · exact ⟨_, decode_opcode_encw h⟩
  · exact ⟨_, decode_opcode_chk h⟩
  · exact ⟨_, decode_opcode_decw h⟩
  · exact ⟨_, decode_opcode_encode h⟩
  · exact ⟨_, decode_opcode_decode h⟩
  · exact ⟨_, decode_opcode_interleave h⟩
  · exact ⟨_, decode_opcode_deinterleave h⟩
  · exact ⟨_, decode_opcode_parse h⟩
  · exact ⟨_, decode_opcode_send h⟩
  · exact ⟨_, decode_opcode_close h⟩
  · exact ⟨_, decode_opcode_bind h⟩
  · exact ⟨_, decode_opcode_rx h⟩
  · exact ⟨_, decode_opcode_tick h⟩
  · exact ⟨_, decode_opcode_txerr h⟩
  · exact ⟨_, decode_opcode_listening h⟩

theorem decode_of_mem_registerOpcodes (h : opcodeOf w ∈ registerOpcodes) :
    ∃ f, decode w = registerForm (imm8Of w) f := by
  simp only [registerOpcodes, List.mem_cons, List.not_mem_nil, or_false] at h
  obtain h | h := h
  · exact ⟨_, decode_opcode_rdreg h⟩
  · exact ⟨_, decode_opcode_wrreg h⟩

/-- 30_encoding.md R95, first case. -/
theorem decode_eq_none_iff_of_mem_fixedOpcodes (h : opcodeOf w ∈ fixedOpcodes) :
    decode w = none ↔ imm8Of w ≠ 0#8 := by
  obtain ⟨i, hi⟩ := decode_of_mem_fixedOpcodes h
  rw [hi, fixedForm_eq_none_iff]

/-- 30_encoding.md R95, second case. -/
theorem decode_eq_none_iff_of_mem_registerOpcodes (h : opcodeOf w ∈ registerOpcodes) :
    decode w = none ↔ 16 ≤ (imm8Of w).toNat := by
  obtain ⟨f, hf⟩ := decode_of_mem_registerOpcodes h
  rw [hf, registerForm_eq]
  split
  · next hlt => simpa using hlt
  · next hge => simpa using hge

/-- 30_encoding.md R94, R95: the legal words by their two bytes. -/
theorem decode_isSome_iff : (decode w).isSome = true ↔
    (opcodeOf w ∈ fixedOpcodes ∧ imm8Of w = 0#8) ∨ opcodeOf w = 0x09#8 ∨
      (opcodeOf w ∈ registerOpcodes ∧ (imm8Of w).toNat < 16) := by
  rw [Option.isSome_iff_ne_none, ne_eq]
  constructor
  · intro hsome
    have hmem : opcodeOf w ∈ assignedOpcodes := not_not.1 fun hmem => hsome (decode_opcode_unassigned hmem)
    obtain hop | hop | hop := mem_assignedOpcodes_iff.1 hmem
    · exact .inl ⟨hop, by rwa [decode_eq_none_iff_of_mem_fixedOpcodes hop, not_not] at hsome⟩
    · exact .inr (.inl hop)
    · exact .inr (.inr ⟨hop, by rwa [decode_eq_none_iff_of_mem_registerOpcodes hop, not_le] at hsome⟩)
  · rintro (⟨hop, himm⟩ | hop | ⟨hop, himm⟩)
    · rw [decode_eq_none_iff_of_mem_fixedOpcodes hop]
      exact not_not.2 himm
    · simp [decode_opcode_build hop]
    · rw [decode_eq_none_iff_of_mem_registerOpcodes hop]
      exact not_le.2 himm

/-- 30_encoding.md R94, for a word whose immediate no opcode reserves. -/
theorem decode_eq_none_iff_of_imm8Of_eq_zero (h : imm8Of w = 0#8) : decode w = none ↔ opcodeOf w ∉ assignedOpcodes := by
  rw [← Option.not_isSome_iff_eq_none, decode_isSome_iff, mem_assignedOpcodes_iff]
  simp [h]

/-- The words with the opcode `a` whose immediate is below `n` are an interval. -/
theorem mem_interval_iff {lo hi : Word16} {a : Byte} {n : Nat} (hn : n ≤ 256) (hlo : lo.toNat = 256 * a.toNat)
    (hhi : hi.toNat + 1 = 256 * a.toNat + n) : lo ≤ w ∧ w ≤ hi ↔ opcodeOf w = a ∧ (imm8Of w).toNat < n := by
  rw [BitVec.le_def, BitVec.le_def, ← BitVec.toNat_inj, opcodeOf_toNat, imm8Of_toNat]
  omega

/-- 30_encoding.md R91: a word is in the image of a set of byte pairs exactly when its two bytes are in the set. -/
theorem mem_map_append_iff {l : List (Byte × Byte)} :
    w ∈ l.map (fun p => p.1 ++ p.2) ↔ (opcodeOf w, imm8Of w) ∈ l := by
  constructor
  · intro h
    obtain ⟨⟨a, b⟩, hp, rfl⟩ := List.mem_map.1 h
    rwa [opcodeOf_append, imm8Of_append]
  · exact fun h => List.mem_map.2 ⟨_, h, opcodeOf_append_imm8Of w⟩

/-- The immediates below `n`. -/
def immediates (n : Nat) : List Byte := (List.range n).map (BitVec.ofNat 8)

theorem mem_immediates_iff {n : Nat} (hn : n ≤ 256) {b : Byte} : b ∈ immediates n ↔ b.toNat < n := by
  simp only [immediates, List.mem_map, List.mem_range]
  constructor
  · rintro ⟨k, hk, rfl⟩
    rw [BitVec.toNat_ofNat]
    omega
  · exact fun h => ⟨b.toNat, h, by simp⟩

theorem nodup_immediates {n : Nat} (hn : n ≤ 256) : (immediates n).Nodup := by
  refine List.Nodup.map_on (fun j hj k hk h => ?_) List.nodup_range
  rw [List.mem_range] at hj hk
  simpa [Nat.mod_eq_of_lt (hj.trans_le hn), Nat.mod_eq_of_lt (hk.trans_le hn)] using congrArg BitVec.toNat h

/-- The opcode and immediate of every legal word (30_encoding.md R95). -/
def legalBytes : List (Byte × Byte) :=
  fixedOpcodes ×ˢ [0#8] ++ ([0x09#8] ×ˢ immediates 256 ++ registerOpcodes ×ˢ immediates 16)

theorem length_legalBytes : legalBytes.length = 304 := by
  simp [legalBytes, immediates, fixedOpcodes, registerOpcodes]

/-- Byte pairs with opcodes from disjoint lists are disjoint. -/
theorem disjoint_product {ops ops' imms imms' : List Byte} (h : ops.Disjoint ops') :
    (ops ×ˢ imms).Disjoint (ops' ×ˢ imms') := fun _ hp hp' =>
  h (List.mem_product.1 hp).1 (List.mem_product.1 hp').1

theorem nodup_legalBytes : legalBytes.Nodup := by
  have hfixed : fixedOpcodes.Nodup := by decide
  have hregister : registerOpcodes.Nodup := by decide
  have hbuild : List.Disjoint [0x09#8] registerOpcodes := by simp [registerOpcodes]
  have hrest : List.Disjoint fixedOpcodes [0x09#8] ∧ fixedOpcodes.Disjoint registerOpcodes := by
    simp [fixedOpcodes, registerOpcodes]
  exact (hfixed.product (List.nodup_singleton _)).append
    (((List.nodup_singleton _).product (nodup_immediates le_rfl)).append
      (hregister.product (nodup_immediates (by decide))) (disjoint_product hbuild))
    (List.disjoint_append_right.2 ⟨disjoint_product hrest.1, disjoint_product hrest.2⟩)

theorem mem_legalBytes_iff {a b : Byte} :
    (a, b) ∈ legalBytes ↔ (a ∈ fixedOpcodes ∧ b = 0#8) ∨ a = 0x09#8 ∨ (a ∈ registerOpcodes ∧ b.toNat < 16) := by
  have hbyte : b ∈ immediates 256 := (mem_immediates_iff le_rfl).2 b.isLt
  have hnibble : b ∈ immediates 16 ↔ b.toNat < 16 := mem_immediates_iff (by decide)
  simp only [legalBytes, List.mem_append, List.mem_product, List.mem_singleton, hbyte, hnibble, and_true]

end LegalWords

/-- Settles O4: an unassigned opcode decodes to nothing, whatever the immediate. -/
theorem illegalOpcodeRaisesAndChangesOnlyLastErr : Obligations.IllegalOpcodeRaisesAndChangesOnlyLastErr := by
  refine ⟨fun s port op rest hin hop => ?_, fun w himm => ?_⟩
  · rw [← opcodeOf_toNat, ← not_mem_assignedOpcodes_iff] at hop
    exact step_eq_afterRaise_of_illegal hin (decode_opcode_unassigned hop)
  · have hzero : imm8Of w = 0#8 := BitVec.eq_of_toNat_eq ((imm8Of_toNat w).trans himm)
    rw [Option.isNone_iff_eq_none, decode_eq_none_iff_of_imm8Of_eq_zero hzero, not_mem_assignedOpcodes_iff, opcodeOf_toNat]

/-- Settles O5: the two cases of a reserved immediate, and the legal words by their two bytes. -/
theorem reservedImmediateBitsRaiseAndExactly304WordsAreLegal :
    Obligations.ReservedImmediateBitsRaiseAndExactly304WordsAreLegal := by
  refine ⟨fun s port op rest hin hop => ?_, fun w => ?_, legalBytes.map fun p => p.1 ++ p.2, ?_, ?_, fun w => ?_⟩
  · have hmem {l : List Byte} : op.w.toNat / 256 ∈ l.map BitVec.toNat ↔ opcodeOf op.w ∈ l := by
      rw [← opcodeOf_toNat, List.mem_map_of_injective (fun _ _ => BitVec.eq_of_toNat_eq)]
    rw [← imm8Of_toNat] at hop
    refine step_eq_afterRaise_of_illegal hin ?_
    obtain ⟨hop, himm⟩ | ⟨hop, himm⟩ := hop
    · exact (decode_eq_none_iff_of_mem_fixedOpcodes (hmem.1 hop)).2 fun h => himm (by rw [h]; rfl)
    · exact (decode_eq_none_iff_of_mem_registerOpcodes (hmem.1 hop)).2 (by omega)
  · have hfixed : w ∈ (fixedOpcodes ×ˢ [0#8]).map (fun p => p.1 ++ p.2) ↔
        opcodeOf w ∈ fixedOpcodes ∧ imm8Of w = 0#8 := by
      rw [mem_map_append_iff, List.mem_product, List.mem_singleton]
    have hbuild : 0x0900#16 ≤ w ∧ w ≤ 0x09FF#16 ↔ opcodeOf w = 0x09#8 := by
      rw [mem_interval_iff (a := 0x09#8) (n := 256) le_rfl rfl rfl, and_iff_left (imm8Of w).isLt]
    have hregister : (0x1800#16 ≤ w ∧ w ≤ 0x180F#16) ∨ (0x1900#16 ≤ w ∧ w ≤ 0x190F#16) ↔
        opcodeOf w ∈ registerOpcodes ∧ (imm8Of w).toNat < 16 := by
      rw [mem_interval_iff (a := 0x18#8) (n := 16) (by decide) rfl rfl,
        mem_interval_iff (a := 0x19#8) (n := 16) (by decide) rfl rfl, ← or_and_right]
      simp [registerOpcodes]
    rw [decode_isSome_iff, ← hfixed, ← hbuild, ← hregister]
    rfl
  · exact nodup_legalBytes.map fun p q h =>
      Prod.ext (by simpa using congrArg opcodeOf h) (by simpa using congrArg imm8Of h)
  · rw [List.length_map, length_legalBytes]
  · rw [mem_map_append_iff, mem_legalBytes_iff, decode_isSome_iff]

end Sys2Proof.Machine

/-!
The family of 41_hamming.md: the bits of buffers and little-endian words, the bits of codewords and their data bits,
the check of a word by syndrome and overall parity (R112), the coded blocks of a buffer (R115, R116) and the range checks
of the word operations (R117).
-/

namespace Sys2Proof.Machine

open Sys2Proof

section Answers

variable {s : State}

/-- 60_exceptions.md R273: an answer with status `OK` leaves the architectural state as it was. -/
theorem answer_eq_after_of_ok {r : Resp} (h : r.status = .ok) : answer s r = .next (s.after s.st r []) :=
  congrArg _ (s.commit_eq_after_of_ok s.st [] h)

/-- 60_exceptions.md R273: an answer with an error changes `last_err` alone. -/
theorem answer_eq_after_of_error {r : Resp} {x : Status} (hr : r.status = x) (hx : x ≠ .ok) :
    answer s r = .next (s.after (s.st.withError x) r []) := by
  rw [answer, complete, State.commit_eq_after, hr, St.record_error _ hx]

/-- 00_scope.md R8: a buffer within the limit is not refused. -/
theorem State.fits.oversize_eq_false (h : s.fits) : s.oversize = false := by
  rw [State.oversize, Bool.eq_false_iff, Ne, tooLong_eq_true_iff]
  rintro ⟨m, hm, hlt⟩
  exact absurd (h m hm) (Nat.not_le.2 hlt)

/-- 41_hamming.md R117: a value of 17 bits or more is no word operand. -/
theorem wordOperand_eq_none_of_le {v : Word32} (h : 65536 ≤ v.toNat) : wordOperand v = none := by
  refine Option.eq_none_iff_forall_ne_some.2 fun w hw => ?_
  rw [wordOperand_eq_some_iff.1 hw, BitVec.toNat_setWidth_of_le (by decide)] at h
  exact absurd w.isLt (Nat.not_lt.2 h)

/-- 41_hamming.md R117: a value of 12 bits or more is no data operand. -/
theorem dataOperand_eq_none_of_le {v : Word32} (h : 2048 ≤ v.toNat) : dataOperand v = none := by
  refine Option.eq_none_iff_forall_ne_some.2 fun d hd => ?_
  rw [dataOperand_eq_some_iff.1 hd, BitVec.toNat_setWidth_of_le (by decide)] at h
  exact absurd d.isLt (Nat.not_lt.2 h)

theorem withWord_of_out_of_range {k : Word16 → Result} (h : 65536 ≤ s.op.val.toNat) :
    withWord s k = .next (s.afterRaise .invalidArgument) :=
  (withWord_of_none (wordOperand_eq_none_of_le h)).trans (raise_eq (by decide))

theorem withData11_of_out_of_range {k : Data11 → Result} (h : 2048 ≤ s.op.val.toNat) :
    withData11 s k = .next (s.afterRaise .invalidArgument) :=
  (withData11_of_none (dataOperand_eq_none_of_le h)).trans (raise_eq (by decide))

end Answers

/-- Settles O8: an operand out of range is refused before the operation reads it. -/
theorem wordOperandsOutOfRangeAreRefused : Obligations.WordOperandsOutOfRangeAreRefused := by
  refine fun s => ⟨fun h i hi => ?_, fun h => withData11_of_out_of_range h⟩
  simp only [List.mem_cons, List.not_mem_nil, or_false] at hi
  obtain rfl | rfl | rfl := hi <;> exact withWord_of_out_of_range h

section Check

variable {w : Word16}

/-- The positions of the set bits of a word, in order (41_hamming.md R112). -/
def setPositions (w : Word16) : List Nat := (List.range 16).filter w.getLsbD

/-- The XOR of the positions of the set bits of a word, as a number (41_hamming.md R112). -/
def positionXor (w : Word16) : Nat := (setPositions w).foldl (· ^^^ ·) 0

theorem syndromeOver_eq_ofNat_foldl_xor (ps : List Nat) (w : Word16) :
    syndromeOver ps w = BitVec.ofNat 4 ((ps.filter w.getLsbD).foldl (· ^^^ ·) 0) := by
  suffices h : ∀ n : Nat, ps.foldl (fun syn p => if w.getLsbD p then syn ^^^ BitVec.ofNat 4 p else syn)
      (BitVec.ofNat 4 n) = BitVec.ofNat 4 ((ps.filter w.getLsbD).foldl (· ^^^ ·) n) from h 0
  induction ps with
  | nil => exact fun _ => rfl
  | cons p ps ih =>
    intro n
    cases hp : w.getLsbD p
    · simp [hp, ih]
    · simp [hp, ← ih, BitVec.ofNat_xor]

theorem parityOver_eq_decide_odd_length (ps : List Nat) (w : Word16) :
    parityOver ps w = decide ((ps.filter w.getLsbD).length % 2 = 1) := by
  suffices h : ∀ b : Bool, ps.foldl (fun par p => par ^^ w.getLsbD p) b =
      (b ^^ decide ((ps.filter w.getLsbD).length % 2 = 1)) from (h false).trans (Bool.false_xor _)
  induction ps with
  | nil => simp
  | cons p ps ih =>
    intro b
    rw [List.foldl_cons, ih, List.filter_cons]
    cases w.getLsbD p
    · simp
    · have hflip : decide (((ps.filter w.getLsbD).length + 1) % 2 = 1) =
          !decide ((ps.filter w.getLsbD).length % 2 = 1) := by
        rw [← decide_not, decide_eq_decide]
        omega
      simp [hflip]

theorem positionXor_lt (w : Word16) : positionXor w < 16 := by
  suffices h : ∀ ps : List Nat, (∀ p ∈ ps, p < 2 ^ 4) → ∀ n < 2 ^ 4, ps.foldl (· ^^^ ·) n < 2 ^ 4 from
    h _ (fun p hp => List.mem_range.1 (List.mem_of_mem_filter hp)) 0 (by decide)
  intro ps
  induction ps with
  | nil => exact fun _ _ hn => hn
  | cons p ps ih =>
    intro hps n hn
    rw [List.forall_mem_cons] at hps
    exact ih hps.2 _ (Nat.xor_lt_two_pow hn hps.1)

theorem syndromeOver_range_toNat (w : Word16) : (syndromeOver (List.range 16) w).toNat = positionXor w := by
  rw [syndromeOver_eq_ofNat_foldl_xor, ← setPositions, ← positionXor, BitVec.toNat_ofNat,
    Nat.mod_eq_of_lt (positionXor_lt w)]

theorem syndromeOver_range_eq_zero_iff : syndromeOver (List.range 16) w = 0#4 ↔ positionXor w = 0 := by
  rw [← syndromeOver_range_toNat, ← BitVec.toNat_inj]
  rfl

theorem parityOver_range_of_odd (h : (setPositions w).length % 2 = 1) : parityOver (List.range 16) w = true := by
  rw [parityOver_eq_decide_odd_length, ← setPositions, h]
  rfl

/-- 41_hamming.md R112, odd parity: the bit at the syndrome is flipped, bit 0 where the syndrome is 0. -/
theorem checkAndCorrect_of_odd (h : (setPositions w).length % 2 = 1) :
    checkAndCorrect w = ⟨false, w ^^^ (1#16 <<< positionXor w)⟩ := by
  by_cases hsyn : positionXor w = 0 <;>
    simp [checkAndCorrect, parityOver_range_of_odd h, syndromeOver_range_eq_zero_iff, hsyn, bitAt,
      syndromeOver_range_toNat]

theorem parityOver_range_of_even (h : (setPositions w).length % 2 = 0) : parityOver (List.range 16) w = false := by
  rw [parityOver_eq_decide_odd_length, ← setPositions, h]
  rfl

/-- 41_hamming.md R112, even parity and a nonzero syndrome: unrecoverable, and the word comes back as it is. -/
theorem checkAndCorrect_of_even_of_ne (h : (setPositions w).length % 2 = 0) (hsyn : positionXor w ≠ 0) :
    checkAndCorrect w = ⟨true, w⟩ := by
  simp [checkAndCorrect, parityOver_range_of_even h, syndromeOver_range_eq_zero_iff, hsyn]

/-- 41_hamming.md R112, even parity and syndrome 0: there is nothing to correct. -/
theorem checkAndCorrect_of_even_of_eq_zero (h : (setPositions w).length % 2 = 0) (hsyn : positionXor w = 0) :
    checkAndCorrect w = ⟨false, w⟩ := by
  simp [checkAndCorrect, parityOver_range_of_even h, syndromeOver_range_eq_zero_iff, hsyn]

variable {s : State} {c : Word16}

/-- 41_hamming.md R120: what `CHK` answers for a word that `CheckAndCorrect` finds recoverable. -/
theorem exec_chk_of_recoverable (hv : s.op.val = w.setWidth 32) (hc : checkAndCorrect w = ⟨false, c⟩) :
    exec .chk s = .next (s.after s.st { val := c.setWidth 32 } []) := by
  rw [exec, execChk, withWord_of_some (wordOperand_eq_some_iff.2 hv), hc]
  exact answer_eq_after_of_ok rfl

/-- 41_hamming.md R120: what `CHK` answers for a word that `CheckAndCorrect` finds unrecoverable. -/
theorem exec_chk_of_unrecoverable (hv : s.op.val = w.setWidth 32) (hc : checkAndCorrect w = ⟨true, c⟩) :
    exec .chk s = .next (s.after (s.st.withError .codecUncorrectable)
      { status := .codecUncorrectable, unrec := true, val := c.setWidth 32 } []) := by
  rw [exec, execChk, withWord_of_some (wordOperand_eq_some_iff.2 hv), hc]
  exact answer_eq_after_of_error rfl (by decide)

end Check

/-- Settles O11: the syndrome is the XOR of the set positions, and the overall parity counts them. -/
theorem chkFollowsSyndromeAndOverallParity : Obligations.ChkFollowsSyndromeAndOverallParity := fun _ _ hv =>
  ⟨fun heven hsyn => exec_chk_of_unrecoverable hv (checkAndCorrect_of_even_of_ne heven hsyn),
    fun hodd => exec_chk_of_recoverable hv (checkAndCorrect_of_odd hodd),
    fun heven hsyn => exec_chk_of_recoverable hv (checkAndCorrect_of_even_of_eq_zero heven hsyn)⟩

section Bits

/-- Lists of one length `m` joined together: element `m * k + i` is element `i` of the `k`-th. -/
theorem getElem?_flatMap_of_length {α β : Type} {f : α → List β} {m : Nat} (hf : ∀ x, (f x).length = m)
    (l : List α) (k : Nat) {i : Nat} (hi : i < m) : (l.flatMap f)[m * k + i]? = l[k]?.bind fun x => (f x)[i]? := by
  induction l generalizing k with
  | nil => rfl
  | cons x l ih =>
    rw [List.flatMap_cons]
    cases k with
    | zero => rw [Nat.mul_zero, Nat.zero_add, List.getElem?_append_left (by rwa [hf])]; rfl
    | succ k =>
      have hidx : m * (k + 1) + i = (f x).length + (m * k + i) := by rw [hf, Nat.mul_succ]; omega
      rw [hidx, List.getElem?_append_right (Nat.le_add_right _ _), Nat.add_sub_cancel_left, ih]
      rfl

theorem bitOf_eq_bitsOf_getD (b : Buffer) (n : Nat) : bitOf b n = (bitsOf b).getD n false := by
  rw [List.getD_eq_getElem?_getD, bitsOf_getElem?, bitOf, List.getD_eq_getElem?_getD]
  cases b[n / 8]? <;> simp

theorem bitOf_append_left {a : Buffer} (b : Buffer) {n : Nat} (h : n < 8 * a.length) : bitOf (a ++ b) n = bitOf a n := by
  rw [bitOf, List.getD_append _ _ _ _ (by omega), bitOf]

theorem bitOf_append_right {a : Buffer} {m : Nat} (hm : a.length = m) (b : Buffer) (n : Nat) :
    bitOf (a ++ b) (8 * m + n) = bitOf b n := by
  have hdiv : (8 * m + n) / 8 = a.length + n / 8 := by omega
  have hmod : (8 * m + n) % 8 = n % 8 := by omega
  rw [bitOf, hdiv, hmod, List.getD_append_right _ _ _ _ (by omega), Nat.add_sub_cancel_left, bitOf]

theorem bitOf_zeros (m n : Nat) : bitOf (zeros m) n = false := by
  simp only [bitOf, zeros, List.getD_eq_getElem?_getD, List.getElem?_replicate]
  split <;> simp

theorem bitOf_append_zeros (b : Buffer) (m n : Nat) : bitOf (b ++ zeros m) n = bitOf b n := by
  by_cases h : n < 8 * b.length
  · exact bitOf_append_left _ h
  · obtain ⟨n, rfl⟩ := Nat.exists_eq_add_of_le (Nat.not_lt.1 h)
    rw [bitOf_append_right rfl, bitOf_zeros, bitOf, List.getD_eq_default _ _ (by omega), BitVec.getLsbD_zero]

theorem bitOf_take (b : Buffer) {m n : Nat} (h : n < 8 * m) : bitOf (b.take m) n = bitOf b n := by
  simp only [bitOf, List.getD_eq_getElem?_getD, List.getElem?_take_of_lt (show n / 8 < m by omega)]

theorem bitOf_drop (b : Buffer) (m n : Nat) : bitOf (b.drop m) n = bitOf b (8 * m + n) := by
  have hdiv : (8 * m + n) / 8 = m + n / 8 := by omega
  have hmod : (8 * m + n) % 8 = n % 8 := by omega
  simp only [bitOf, List.getD_eq_getElem?_getD, List.getElem?_drop, hdiv, hmod]

/-- 20_memory.md R72: bit `i` of the sequence is bit `i` of the buffer, zero beyond its end. -/
theorem bitOf_bitsToBuffer (s : List Bool) (i : Nat) : bitOf (bitsToBuffer s) i = s.getD i false := by
  simp only [bitOf, List.getD_eq_getElem?_getD, bitsToBuffer, List.getElem?_map]
  by_cases h : i / 8 < (s.length + 7) / 8
  · rw [List.getElem?_range h]
    simp only [Option.map_some, Option.getD_some]
    rw [byteOfBits_getLsbD _ _ (Nat.mod_lt _ (by decide)), List.getD_eq_getElem?_getD,
      List.getElem?_take_of_lt (Nat.mod_lt _ (by decide)), List.getElem?_drop, Nat.div_add_mod]
  · rw [List.getElem?_eq_none (by simpa using h), List.getElem?_eq_none (by omega)]
    simp

/-- 20_memory.md R74, bit by bit. -/
theorem readWordLE_getLsbD (b : Buffer) (off : Nat) {p : Nat} (hp : p < 16) :
    (readWordLE b off).getLsbD p = bitOf b (8 * off + p) := by
  rw [readWordLE, BitVec.getLsbD_append, bitOf]
  by_cases h : p < 8
  · have hdiv : (8 * off + p) / 8 = off := by omega
    have hmod : (8 * off + p) % 8 = p := by omega
    rw [if_pos h, hdiv, hmod]
  · have hdiv : (8 * off + p) / 8 = off + 1 := by omega
    have hmod : (8 * off + p) % 8 = p - 8 := by omega
    rw [if_neg h, hdiv, hmod]

/-- A word read is fixed by the 16 bits it reads (20_memory.md R74). -/
theorem readWordLE_congr {b b' : Buffer} {off off' : Nat}
    (h : ∀ p < 16, bitOf b (8 * off + p) = bitOf b' (8 * off' + p)) : readWordLE b off = readWordLE b' off' :=
  BitVec.eq_of_getLsbD_eq fun p hp => by rw [readWordLE_getLsbD _ _ hp, readWordLE_getLsbD _ _ hp, h p hp]

theorem readWordLE_append_left {a : Buffer} (b : Buffer) {off : Nat} (h : off + 1 < a.length) :
    readWordLE (a ++ b) off = readWordLE a off :=
  readWordLE_congr fun _ _ => bitOf_append_left _ (by omega)

theorem readWordLE_append_right {a : Buffer} {m : Nat} (hm : a.length = m) (b : Buffer) (off : Nat) :
    readWordLE (a ++ b) (m + off) = readWordLE b off :=
  readWordLE_congr fun p _ => by rw [Nat.mul_add, Nat.add_assoc, bitOf_append_right hm]

theorem readWordLE_take (b : Buffer) {m off : Nat} (h : off + 1 < m) : readWordLE (b.take m) off = readWordLE b off :=
  readWordLE_congr fun _ _ => bitOf_take _ (by omega)

theorem readWordLE_drop (b : Buffer) (m off : Nat) : readWordLE (b.drop m) off = readWordLE b (m + off) :=
  readWordLE_congr fun p _ => by rw [bitOf_drop, Nat.mul_add, Nat.add_assoc]

/-- 20_memory.md R73, R74: a word written is the word read back. -/
theorem readWordLE_writeWordLE (w : Word16) : readWordLE (writeWordLE w) 0 = w :=
  BitVec.eq_of_getLsbD_eq fun p hp => by
    rw [readWordLE, BitVec.getLsbD_append]
    by_cases h : p < 8
    · simp [writeWordLE, h]
    · simp [writeWordLE, h, show p - 8 < 8 by omega, show 8 + (p - 8) = p by omega]

/-- The words of a sequence written one after the other are read back at every second byte. -/
theorem readWordLE_flatMap_writeWordLE {α : Type} (f : α → Word16) (l : List α) {k : Nat} {x : α}
    (hx : l[k]? = some x) : readWordLE (l.flatMap fun x => writeWordLE (f x)) (2 * k) = f x := by
  have hbyte {i : Nat} (hi : i < 2) :
      (l.flatMap fun x => writeWordLE (f x))[2 * k + i]? = (writeWordLE (f x))[i]? := by
    rw [getElem?_flatMap_of_length (fun x => writeWordLE_length (f x)) l k hi, hx]
    rfl
  rw [← readWordLE_writeWordLE (f x)]
  simp only [readWordLE, List.getD_eq_getElem?_getD, ← hbyte one_lt_two, ← hbyte two_pos, Nat.zero_add, Nat.add_zero]

end Bits

section Codewords

theorem dataPositions_getElem?_eq_some_iff {i p : Nat} :
    dataPositions[i]? = some p ↔ i < 11 ∧ p = dataPosition i := by
  by_cases h : i < 11
  · simp [dataPosition, List.getD_eq_getElem?_getD, h, dataPositions, eq_comm]
  · simp [h, dataPositions]

theorem dataPosition_injOn : ∀ i < 11, ∀ k < 11, dataPosition i = dataPosition k → i = k := by decide

theorem dataPosition_lt : ∀ i < 11, dataPosition i < 16 := by decide

/-- The parity bits stand at no data position (41_hamming.md R110). -/
theorem dataPosition_not_parity : ∀ i < 11, dataPosition i ≠ 0 ∧ ∀ j < 4, dataPosition i ≠ 2 ^ j := by decide

theorem foldl_or_getLsbD {α : Type} (f : α → Word16) (l : List α) (w : Word16) (p : Nat) :
    (l.foldl (fun r x => r ||| f x) w).getLsbD p = (w.getLsbD p || l.any fun x => (f x).getLsbD p) := by
  induction l generalizing w with
  | nil => simp
  | cons x l ih => rw [List.foldl_cons, ih, BitVec.getLsbD_or, List.any_cons, Bool.or_assoc]

/-- 41_hamming.md R110: data bit `i` stands at its position. -/
theorem place_getLsbD_dataPosition (d : Data11) {i : Nat} (hi : i < 11) :
    (place d).getLsbD (dataPosition i) = d.getLsbD i := by
  rw [place, foldl_or_getLsbD, BitVec.getLsbD_zero, Bool.false_or, Bool.eq_iff_iff, List.any_eq_true]
  simp only [List.mem_range, bitAt_getLsbD, Bool.and_eq_true, decide_eq_true_eq]
  constructor
  · rintro ⟨k, hk, ⟨-, hpos⟩, hbit⟩
    rwa [dataPosition_injOn i hi k hk hpos]
  · exact fun hbit => ⟨i, hi, ⟨dataPosition_lt i hi, rfl⟩, hbit⟩

/-- 41_hamming.md R111: `Parity` sets bits at positions 0, 1, 2, 4 and 8 only. -/
theorem parityBits_getLsbD_eq_false (w : Word16) {p : Nat} (h0 : p ≠ 0) (h : ∀ j < 4, p ≠ 2 ^ j) :
    (parityBits w).getLsbD p = false := by
  rw [parityBits, foldl_or_getLsbD, bitAt_getLsbD, Bool.or_eq_false_iff, List.any_eq_false]
  refine ⟨by simp [h0], fun j hj => ?_⟩
  simp [bitAt_getLsbD, h j (List.mem_range.1 hj)]

/-- 41_hamming.md R113: the codeword of a value holds its data bits. -/
theorem encWord_getLsbD_dataPosition (d : Data11) {i : Nat} (hi : i < 11) :
    (encWord d).getLsbD (dataPosition i) = d.getLsbD i := by
  obtain ⟨h0, hpow⟩ := dataPosition_not_parity i hi
  rw [encWord, BitVec.getLsbD_or, place_getLsbD_dataPosition d hi, parityBits_getLsbD_eq_false _ h0 hpow, Bool.or_false]

/-- 41_hamming.md R114: data bit `i` is read at its position. -/
theorem extract_getLsbD (w : Word16) {i : Nat} (hi : i < 11) : (extract w).getLsbD i = w.getLsbD (dataPosition i) := by
  rw [extract, BitVec.getLsbD_ofNat, natOfBits_testBit, List.getD_eq_getElem?_getD, List.getElem?_map,
    dataPositions_getElem?_eq_some_iff.2 ⟨hi, rfl⟩]
  simp [hi]

theorem bitsOfData_getElem? (d : Data11) {i : Nat} (hi : i < 11) : (bitsOfData d)[i]? = some (d.getLsbD i) := by
  simp [bitsOfData, hi]

end Codewords

section Blocks

/-- 41_hamming.md R115: bit `i` of the `k`-th value of a buffer, zero beyond its end. -/
theorem dataWord_bitsOf_getLsbD (b : Buffer) (k : Nat) {i : Nat} (hi : i < 11) :
    (dataWord (bitsOf b) k).getLsbD i = bitOf b (11 * k + i) := by
  rw [dataWord, BitVec.getLsbD_ofNat, natOfBits_testBit, List.getD_eq_getElem?_getD, List.getElem?_take_of_lt hi,
    List.getElem?_drop, bitOf_eq_bitsOf_getD, List.getD_eq_getElem?_getD]
  simp [hi]

/-- A value read from a buffer is fixed by its 11 bits. -/
theorem dataWord_bitsOf_congr {b b' : Buffer} {k k' : Nat}
    (h : ∀ i < 11, bitOf b (11 * k + i) = bitOf b' (11 * k' + i)) :
    dataWord (bitsOf b) k = dataWord (bitsOf b') k' :=
  BitVec.eq_of_getLsbD_eq fun i hi => by rw [dataWord_bitsOf_getLsbD _ _ hi, dataWord_bitsOf_getLsbD _ _ hi, h i hi]

/-- 41_hamming.md R115: the padding of a short chunk changes no value of it. -/
theorem dataWord_bitsOf_chunk (b : Buffer) {k m : Nat} (hk : k < 8) :
    dataWord (bitsOf (b.take 11 ++ zeros m)) k = dataWord (bitsOf b) k :=
  dataWord_bitsOf_congr fun _ _ => by rw [bitOf_append_zeros, bitOf_take _ (by omega)]

/-- 41_hamming.md R115: a chunk holds 8 values. -/
theorem dataWord_bitsOf_drop (b : Buffer) (k : Nat) :
    dataWord (bitsOf (b.drop 11)) k = dataWord (bitsOf b) (8 + k) :=
  dataWord_bitsOf_congr fun _ _ => by rw [bitOf_drop, Nat.mul_add, ← Nat.add_assoc]

theorem readWordLE_encodeChunk (chunk : Buffer) {k : Nat} (hk : k < 8) :
    readWordLE (encodeChunk chunk) (2 * k) = encWord (dataWord (bitsOf chunk) k) :=
  readWordLE_flatMap_writeWordLE _ _ (List.getElem?_range hk)

/-- 41_hamming.md R115: counted over all chunks, the `k`-th word of the result is the codeword of the `k`-th 11 bits. -/
theorem readWordLE_encodeChunks {n k : Nat} (b : Buffer) (hk : k < 8 * n) :
    readWordLE (encodeChunks n b) (2 * k) = encWord (dataWord (bitsOf b) k) := by
  induction n generalizing b k with
  | zero => omega
  | succ n ih =>
    rw [encodeChunks_succ]
    by_cases h : k < 8
    · rw [readWordLE_append_left _ (by rw [encodeChunk_length]; omega), readWordLE_encodeChunk _ h,
        dataWord_bitsOf_chunk b h]
    · obtain ⟨k, rfl⟩ := Nat.exists_eq_add_of_le (Nat.not_lt.1 h)
      rw [show 2 * (8 + k) = 16 + 2 * k by omega, readWordLE_append_right (encodeChunk_length _), ih _ (by omega),
        dataWord_bitsOf_drop]

/-- 41_hamming.md R116: the 11 bits decoded from the `k`-th word of a block. -/
theorem bitOf_decodeBlock (block : Buffer) {k i : Nat} (hk : k < 8) (hi : i < 11) :
    bitOf (decodeBlock block) (11 * k + i) =
      (checkAndCorrect (readWordLE block (2 * k))).word.getLsbD (dataPosition i) := by
  have hlen (c : Checked) : (bitsOfData (extract c.word)).length = 11 := bitsOfData_length _
  rw [decodeBlock, bitOf_bitsToBuffer, List.getD_eq_getElem?_getD, getElem?_flatMap_of_length hlen _ k hi, checkBlock,
    List.getElem?_map, List.getElem?_range hk]
  exact congrArg (Option.getD · false) ((bitsOfData_getElem? _ hi).trans (congrArg some (extract_getLsbD _ hi)))

/-- 41_hamming.md R116: counted over all blocks, the `k`-th 11 bits of the result are those of the `k`-th word. -/
theorem bitOf_decodeBlocks {n k i : Nat} (b : Buffer) (hk : k < 8 * n) (hi : i < 11) :
    bitOf (decodeBlocks n b) (11 * k + i) =
      (checkAndCorrect (readWordLE b (2 * k))).word.getLsbD (dataPosition i) := by
  induction n generalizing b k with
  | zero => omega
  | succ n ih =>
    rw [decodeBlocks_succ]
    by_cases h : k < 8
    · rw [bitOf_append_left _ (by rw [decodeBlock_length]; omega), bitOf_decodeBlock _ h hi, readWordLE_take _ (by omega)]
    · obtain ⟨k, rfl⟩ := Nat.exists_eq_add_of_le (Nat.not_lt.1 h)
      rw [show 11 * (8 + k) + i = 8 * 11 + (11 * k + i) by omega, bitOf_append_right (decodeBlock_length _),
        ih _ (by omega), readWordLE_drop, Nat.mul_add]

theorem blockValid_eq_true_iff {block : Buffer} :
    blockValid block = true ↔ ∀ k < 8, (checkAndCorrect (readWordLE block (2 * k))).unrec = false := by
  simp [blockValid, checkBlock]

/-- 41_hamming.md R116: blocks are valid when every word, counted over all of them, is recoverable. -/
theorem blocksValid_eq_true_iff {n : Nat} {b : Buffer} :
    blocksValid n b = true ↔ ∀ k < 8 * n, (checkAndCorrect (readWordLE b (2 * k))).unrec = false := by
  induction n generalizing b with
  | zero => simp
  | succ n ih =>
    rw [blocksValid_succ, Bool.and_eq_true, blockValid_eq_true_iff, ih]
    constructor
    · rintro ⟨hfirst, hrest⟩ k hk
      by_cases h : k < 8
      · rw [← hfirst k h, readWordLE_take _ (by omega)]
      · obtain ⟨k, rfl⟩ := Nat.exists_eq_add_of_le (Nat.not_lt.1 h)
        rw [← hrest k (by omega), readWordLE_drop, Nat.mul_add]
    · refine fun hall => ⟨fun k hk => ?_, fun k hk => ?_⟩
      · rw [readWordLE_take _ (by omega), hall k (by omega)]
      · rw [readWordLE_drop, ← hall (8 + k) (by omega), Nat.mul_add]

end Blocks

section BufferOperations

variable {s : State}

/-- 41_hamming.md R122: what `ENCODE` answers. -/
theorem exec_encode (h : s.fits) : exec .encode s = .next (s.after s.st { data := encodeBuffer s.op.data } []) := by
  rw [exec, execEncode, withBuffer_of_not_oversize h.oversize_eq_false, answer_eq_after_of_ok rfl]

/-- 41_hamming.md R123: `DECODE` answers what `Decode` gives for its operand. -/
theorem exec_decode (h : s.fits) : exec .decode s =
    answer s { status := (decodeBuffer s.op.data).status, valid := (decodeBuffer s.op.data).valid,
               data := (decodeBuffer s.op.data).data } := by
  rw [exec, execDecode, withBuffer_of_not_oversize h.oversize_eq_false]

theorem exec_decode_of_misaligned (h : s.fits) (hlen : s.op.data.length % 16 ≠ 0) :
    exec .decode s = .next (s.afterRaise .framingError) := by
  rw [exec_decode h, decodeBuffer_misaligned hlen]
  exact answer_eq_after_of_error rfl (by decide)

/-- 41_hamming.md R116: an aligned buffer of recoverable words. -/
theorem exec_decode_of_blocksValid (h : s.fits) (hlen : s.op.data.length % 16 = 0)
    (hvalid : blocksValid (s.op.data.length / 16) s.op.data = true) :
    exec .decode s =
      .next (s.after s.st { valid := true, data := decodeBlocks (s.op.data.length / 16) s.op.data } []) := by
  rw [exec_decode h, decodeBuffer_aligned hlen, hvalid]
  exact answer_eq_after_of_ok rfl

/-- 41_hamming.md R116: an aligned buffer with an unrecoverable word; its data is returned all the same. -/
theorem exec_decode_of_not_blocksValid (h : s.fits) (hlen : s.op.data.length % 16 = 0)
    (hvalid : blocksValid (s.op.data.length / 16) s.op.data = false) :
    exec .decode s = .next (s.after (s.st.withError .codecUncorrectable)
      { status := .codecUncorrectable, data := decodeBlocks (s.op.data.length / 16) s.op.data } []) := by
  rw [exec_decode h, decodeBuffer_aligned hlen, hvalid]
  exact answer_eq_after_of_error rfl (by decide)

end BufferOperations

/-- Settles O17: word `k` of block `c` is word `8 * c + k` of the result, and encodes that value of the operand. -/
theorem encodePlacesEveryDataBitInItsCodeword : Obligations.EncodePlacesEveryDataBitInItsCodeword := by
  refine fun s hfits => ⟨_, exec_encode hfits, encodeBuffer_length _, fun c k hc hk => ?_⟩
  have hword : readWordLE (encodeBuffer s.op.data) (16 * c + 2 * k) =
      encWord (dataWord (bitsOf s.op.data) (8 * c + k)) := by
    rw [show 16 * c + 2 * k = 2 * (8 * c + k) by omega]
    exact readWordLE_encodeChunks _ (by unfold chunkLen; omega)
  refine ⟨⟨_, hword⟩, fun i p hp => ?_⟩
  obtain ⟨hi, rfl⟩ := dataPositions_getElem?_eq_some_iff.1 hp
  rw [show 128 * c + 16 * k + dataPosition i = 8 * (16 * c + 2 * k) + dataPosition i by omega,
    ← readWordLE_getLsbD _ _ (dataPosition_lt i hi), hword, encWord_getLsbD_dataPosition _ hi,
    dataWord_bitsOf_getLsbD _ _ hi, show 11 * (8 * c + k) + i = 88 * c + 11 * k + i by omega]

/-- Settles O18: word `k` of block `c` is word `8 * c + k` of the operand; the buffer is valid when all of them are
recoverable. -/
theorem decodeChecksEveryWordAndKeepsBestEffort : Obligations.DecodeChecksEveryWordAndKeepsBestEffort := by
  refine fun s hfits => ⟨exec_decode_of_misaligned hfits, fun hlen => ?_⟩
  refine ⟨decodeBlocks (s.op.data.length / 16) s.op.data, decodeBlocks_length _ _, fun c k hc hk i p hp => ?_,
    fun hall => exec_decode_of_blocksValid hfits hlen (blocksValid_eq_true_iff.2 fun j hj => ?_),
    fun hsome => exec_decode_of_not_blocksValid hfits hlen (Bool.eq_false_iff.2 fun hvalid => ?_)⟩
  · obtain ⟨hi, rfl⟩ := dataPositions_getElem?_eq_some_iff.1 hp
    rw [show 88 * c + 11 * k + i = 11 * (8 * c + k) + i by omega, bitOf_decodeBlocks _ (by omega) hi,
      show 2 * (8 * c + k) = 16 * c + 2 * k by omega]
  · rw [← hall (j / 8) (j % 8) (by omega) (by omega), show 16 * (j / 8) + 2 * (j % 8) = 2 * j by omega]
  · obtain ⟨c, k, hc, hk, hunrec⟩ := hsome
    rw [show 16 * c + 2 * k = 2 * (8 * c + k) by omega, blocksValid_eq_true_iff.1 hvalid _ (by omega)] at hunrec
    cases hunrec

end Sys2Proof.Machine

/-!
The family of 42_interleaver.md: the bits of a function of blocks, block by block, and the bits that one block's
interleaving moves (R150).
-/

namespace Sys2Proof.Machine

open Sys2Proof

section BlockBits

/-- 42_interleaver.md R152: block `blk` of the result is the function of block `blk` of the buffer. -/
theorem bitOf_mapBlocks {f : Buffer → Buffer} (hf : ∀ b, (f b).length = 16) (b : Buffer) {n blk i : Nat}
    (hblk : blk < n) (hi : i < 128) :
    bitOf (mapBlocks f n b) (128 * blk + i) = bitOf (f ((b.drop (16 * blk)).take 16)) i := by
  induction n generalizing b blk with
  | zero => omega
  | succ n ih =>
    rw [mapBlocks_succ]
    cases blk with
    | zero => rw [Nat.mul_zero, Nat.zero_add, bitOf_append_left _ (by rw [hf]; omega), List.drop_zero]
    | succ blk =>
      rw [show 128 * (blk + 1) + i = 8 * 16 + (128 * blk + i) by omega, bitOf_append_right (hf _), ih _ (by omega),
        List.drop_drop, Nat.mul_succ, Nat.add_comm 16]

/-- 42_interleaver.md R150: byte `j` of an interleaved block holds, at bit `w`, bit `j` of word `w` of the block. -/
theorem bitOf_interleaveBlock (block : Buffer) {j w : Nat} (hj : j < 16) (hw : w < 8) :
    bitOf (interleaveBlock block) (8 * j + w) = bitOf block (16 * w + j) := by
  have hdiv : (8 * j + w) / 8 = j := by omega
  have hmod : (8 * j + w) % 8 = w := by omega
  rw [bitOf, hdiv, hmod, interleaveBlock, List.getD_eq_getElem?_getD, List.getElem?_map, List.getElem?_range hj,
    Option.map_some, Option.getD_some, byteOfBits_getLsbD _ _ hw, List.getD_eq_getElem?_getD, List.getElem?_map,
    List.getElem?_range hw, Option.map_some, Option.getD_some, bitOf_eq_bitsOf_getD]

/-- 42_interleaver.md R150, counted over all blocks. -/
theorem bitOf_mapBlocks_interleaveBlock (b : Buffer) {n blk j w : Nat} (hblk : blk < n) (hj : j < 16) (hw : w < 8) :
    bitOf (mapBlocks interleaveBlock n b) (128 * blk + (8 * j + w)) = bitOf b (128 * blk + (16 * w + j)) := by
  rw [bitOf_mapBlocks interleaveBlock_length b hblk (by omega), bitOf_interleaveBlock _ hj hw, bitOf_take _ (by omega),
    bitOf_drop, show 8 * (16 * blk) = 128 * blk by omega]

end BlockBits

section InterleaverOperations

variable {s : State}

/-- 42_interleaver.md R150: the framing error of `Interleave`. -/
theorem interleave_eq_none_iff {b : Buffer} : interleave b = none ↔ b.length % 16 ≠ 0 := by
  simp [Option.eq_none_iff_forall_ne_some, interleave_eq_some_iff]

theorem answerBlocks_none : answerBlocks s none = .next (s.afterRaise .framingError) := raise_eq (by decide)

theorem answerBlocks_some (b : Buffer) : answerBlocks s (some b) = .next (s.after s.st { data := b } []) :=
  answer_eq_after_of_ok rfl

/-- 42_interleaver.md R154: `INTERLEAVE` answers what `Interleave` gives for its operand. -/
theorem exec_interleave (h : s.fits) : exec .interleave s = answerBlocks s (interleave s.op.data) := by
  rw [exec, execInterleave, withBuffer_of_not_oversize h.oversize_eq_false]

theorem exec_interleave_of_misaligned (h : s.fits) (hlen : s.op.data.length % 16 ≠ 0) :
    exec .interleave s = .next (s.afterRaise .framingError) := by
  rw [exec_interleave h, interleave_eq_none_iff.2 hlen, answerBlocks_none]

theorem exec_interleave_of_aligned (h : s.fits) (hlen : s.op.data.length % 16 = 0) :
    exec .interleave s = .next (s.after s.st
      { data := mapBlocks interleaveBlock (s.op.data.length / 16) s.op.data } []) := by
  rw [exec_interleave h, interleave_eq_some_iff.2 ⟨hlen, rfl⟩, answerBlocks_some]

end InterleaverOperations

/-- Settles O20: stream bit `i` of a block is bit `i mod 16` of its word `i div 16`. -/
theorem interleaveMovesBitJOfWordWToByteJ : Obligations.InterleaveMovesBitJOfWordWToByteJ := by
  refine fun s hfits => ⟨exec_interleave_of_misaligned hfits, fun hlen => ?_⟩
  refine ⟨_, exec_interleave_of_aligned hfits hlen, ?_, fun blk i hblk hi => ?_⟩
  · rw [mapBlocks_length interleaveBlock_length]
    omega
  · have hbits := bitOf_mapBlocks_interleaveBlock s.op.data hblk (Nat.mod_lt i (by decide)) (show i / 16 < 8 by omega)
    rwa [Nat.div_add_mod, show 128 * blk + (8 * (i % 16) + i / 16) = 8 * (16 * blk + i % 16) + i / 16 % 8 by omega]
      at hbits

end Sys2Proof.Machine

/-!
The family of 43_framer.md: the padding of the last chunk (R171), the packet BUILD makes (R172, R173) and what PARSE
reports of a received buffer (R174 to R176).
-/

namespace Sys2Proof.Machine

open Sys2Proof

/-- 43_framer.md R171, with `HEADER_LEN` written out. -/
theorem paddingSize_eq (m : Nat) : paddingSize m = (11 - (18 + m) % 11) % 11 := rfl

/-- 43_framer.md R171: header, message and padding are the whole chunks `Encode` makes of the header and message. -/
theorem header_add_paddingSize (m : Nat) : 18 + m + paddingSize m = 11 * ((18 + m + 10) / 11) := by
  rw [paddingSize_eq]
  omega

/-- Settles O25: the padding is the distance to the next multiple of 11. -/
theorem paddingFillsTheLastChunk : Obligations.PaddingFillsTheLastChunk := by
  refine ⟨fun m => ?_, by decide, by decide⟩
  have hlt : paddingSize m < 11 := Nat.mod_lt _ (by decide)
  have hfill := header_add_paddingSize m
  exact ⟨Nat.le_of_lt_succ hlt, paddingSize_eq m, by omega, hfill⟩

section Build

variable {s : State} {t : Byte}

/-- 41_hamming.md R115: a coded buffer is whole blocks. -/
theorem encodeBuffer_aligned (b : Buffer) : (encodeBuffer b).length % 16 = 0 := by
  rw [encodeBuffer_length, Nat.mul_mod_right]

/-- 43_framer.md R173: a coded buffer is whole blocks, so `Interleave` answers and mode 1 transmits its answer. -/
theorem interleave_encodeBuffer (framed : Buffer) :
    interleave (encodeBuffer framed) = some (transmitted framed true) := by
  have hcoded := interleave_eq_some_iff.2 ⟨encodeBuffer_aligned framed, rfl⟩
  simp [transmitted, hcoded]

/-- 42_interleaver.md R152: a function of blocks keeps the length of an aligned buffer. -/
theorem mapBlocks_length_of_aligned {f : Buffer → Buffer} (hf : ∀ b, (f b).length = 16) {b : Buffer}
    (h : b.length % 16 = 0) : (mapBlocks f (b.length / 16) b).length = b.length := by
  rw [mapBlocks_length hf]
  omega

/-- 42_interleaver.md R150: interleaving keeps the length. -/
theorem interleave_length {b x : Buffer} (h : interleave b = some x) : x.length = b.length := by
  obtain ⟨haligned, rfl⟩ := interleave_eq_some_iff.1 h
  exact mapBlocks_length_of_aligned interleaveBlock_length haligned

/-- 43_framer.md R173: a packet is as long in mode 1 as in mode 0. -/
theorem transmitted_length (framed : Buffer) (mode : Bool) :
    (transmitted framed mode).length = 16 * ((framed.length + 10) / 11) := by
  rw [← encodeBuffer_length]
  cases mode with
  | false => rfl
  | true => exact interleave_length (interleave_encodeBuffer framed)

/-- 43_framer.md R172: digest, type and padding byte are the 18 bytes of the header. -/
theorem sealContent_packetContent_length (digest : Buffer → Vector Byte 16) (t : Byte) (msg : Buffer) :
    (sealContent digest (packetContent t msg)).length = 18 + msg.length := by
  simp only [sealContent, packetContent, List.length_append, Vector.length_toList, List.length_cons]
  omega

theorem sealedPacket_length (t : Byte) (msg : Buffer) (mode : Bool) :
    (sealedPacket t msg mode).length = 16 * ((18 + msg.length + 10) / 11) := by
  rw [sealedPacket, transmitted_length, sealContent_packetContent_length]

/-- 43_framer.md R178: what `BUILD` answers for a packet type. -/
theorem exec_build_byte (h : s.fits) (p : PacketType) : exec (.build p.byte) s =
    .next (s.after s.st { data := buildRaw Config.digest p s.op.data s.st.cfgMode } []) := by
  rw [exec, execBuild, withBuffer_of_not_oversize h.oversize_eq_false, PacketType.ofByte_byte]
  exact answer_eq_after_of_ok rfl

/-- 43_framer.md R172, R178: the packet `BUILD` makes is sealed around the operand in a Data packet, around nothing in an
Acknowledgement. -/
theorem exec_build_of_type (h : s.fits) (ht : t = 1#8 ∨ t = 2#8) : exec (.build t) s =
    .next (s.after s.st { data := sealedPacket t (if t = 1#8 then s.op.data else []) s.st.cfgMode } []) := by
  obtain rfl | rfl := ht
  · exact exec_build_byte h .data
  · exact exec_build_byte h .ack

/-- 43_framer.md R178: every other type byte is refused. -/
theorem exec_build_of_no_type (h : s.fits) (h1 : t ≠ 1#8) (h2 : t ≠ 2#8) :
    exec (.build t) s = .next (s.afterRaise .protocolError) := by
  rw [exec, execBuild, withBuffer_of_not_oversize h.oversize_eq_false, PacketType.ofByte_eq_none_iff.2 ⟨h1, h2⟩]
  exact raise_eq (by decide)

end Build

/-- Settles O26: the packet is the sealed content as transmitted, and `Interleave` never fails on it. -/
theorem buildFramesEncodesAndInterleaves : Obligations.BuildFramesEncodesAndInterleaves := by
  refine fun s t hfits => ⟨fun ht => ?_, exec_build_of_no_type hfits⟩
  refine ⟨_, _, _, _, rfl, rfl, rfl, exec_build_of_type hfits ht, fun hmode => ?_, fun hmode => ?_,
    sealedPacket_length _ _ _⟩
  · rw [hmode]
    rfl
  · rw [hmode]
    exact interleave_encodeBuffer _

section Parse

variable {s : State} {raw coded : Buffer} {mode : Bool}

/-- 43_framer.md R174: the coded buffer is the operand in mode 0 and its deinterleaving in mode 1. -/
theorem codedOf_eq_some_iff : codedOf raw mode = some coded ↔
    (mode = false → coded = raw) ∧ (mode = true → deinterleave raw = some coded) := by
  cases mode <;> simp [codedOf, eq_comm]

/-- 42_interleaver.md R151: deinterleaving keeps the length. -/
theorem deinterleave_length {b x : Buffer} (h : deinterleave b = some x) : x.length = b.length := by
  obtain ⟨haligned, rfl⟩ := deinterleave_eq_some_iff.1 h
  exact mapBlocks_length_of_aligned deinterleaveBlock_length haligned

theorem codedOf_length (h : codedOf raw mode = some coded) : coded.length = raw.length := by
  obtain ⟨hplain, hinterleaved⟩ := codedOf_eq_some_iff.1 h
  cases mode with
  | false => rw [hplain rfl]
  | true => exact deinterleave_length (hinterleaved rfl)

/-- 43_framer.md R175, R176: the record of a decoded packet, for the outcome `dm` of the digest check. -/
theorem parseDecoded_eq {digest : Buffer → Vector Byte 16} {hv dm : Bool} {dec : Buffer}
    (hdm : dm = true ↔ (digest ((dec.take (messageEnd dec)).drop 16)).toList = dec.take 16) :
    parseDecoded digest hv dec = ⟨parseStatus hv dm, hv && dm, hv, dm, dec.getD 16 0#8, dec.getD 17 0#8,
      (dec.take (messageEnd dec)).drop 18⟩ := by
  have hcheck : decide ((digest (slice dec digestLen (messageEnd dec))).toList = slice dec 0 digestLen) = dm :=
    Bool.eq_iff_iff.2 (decide_eq_true_iff.trans hdm.symm)
  simp only [parseDecoded, hcheck]
  rfl

/-- 43_framer.md R176, 60_exceptions.md R273: how each outcome of the two checks is recorded. -/
theorem St.record_parseStatus (st : St) (hv dm : Bool) : st.record (parseStatus hv dm) =
    if hv && dm then st else if hv then st.withError .integrityMismatch else st.withError .codecUncorrectable := by
  unfold parseStatus
  split
  · exact st.record_ok
  · split
    · exact st.record_error (by decide)
    · exact st.record_error (by decide)

/-- 43_framer.md R179: `PARSE` answers what `ParseRaw` gives for its operand. -/
theorem exec_parse {r : Parsed} (h : s.fits) (hr : parseRaw Config.digest s.op.data s.st.cfgMode = r) :
    exec .parse s =
      .next (s.after (s.st.record r.status) { r.flags with status := r.status, data := r.msg } []) := by
  rw [exec, execParse, withBuffer_of_not_oversize h.oversize_eq_false, hr, answer, complete, State.commit_eq_after]

/-- 43_framer.md R174: the fast failure of `PARSE`. -/
theorem exec_parse_of_bad_length (h : s.fits) (hlen : s.op.data.length < 18 ∨ s.op.data.length % 16 ≠ 0) :
    exec .parse s = .next (s.afterRaise .framingError) := by
  rw [exec_parse h (parseRaw_framing hlen), St.record_error _ (by decide)]
  rfl

end Parse

/-- Settles O28: an aligned buffer is decoded, and the status follows the two checks. -/
theorem parseReportsFieldsAndEarliestFailure : Obligations.ParseReportsFieldsAndEarliestFailure := by
  refine ⟨fun s hfits hlen => exec_parse_of_bad_length hfits hlen, ?_⟩
  rintro s coded dec msg hv dm pad last hfits hmin hlen hplain hinterleaved rfl rfl rfl rfl rfl hdm
  have hcoded : codedOf s.op.data s.st.cfgMode = some coded := codedOf_eq_some_iff.2 ⟨hplain, hinterleaved⟩
  have hparsed := (parseRaw_decoded (digest := Config.digest) (by omega) hcoded
    ((codedOf_length hcoded).symm ▸ hlen)).trans (parseDecoded_eq hdm)
  rw [exec_parse hfits hparsed, St.record_parseStatus]
  rfl

end Sys2Proof.Machine

/-!
The family of 44_socket.md: the words of the session operations (R95), how an operation that changes the session ends,
and what SEND, CLOSE, BIND, TXERR and LISTENING do in each state of the session (R202 to R204, R209, R210).
-/

namespace Sys2Proof.Machine

open Sys2Proof

/-- 30_encoding.md R95, first case: an operation whose immediate must be zero has one word. -/
theorem soleWord_of_mem_fixedOpcodes {w : Word16} {i : Instr} (hop : opcodeOf w ∈ fixedOpcodes)
    (hw : decode w = some i) : SoleWord w i := by
  refine ⟨hw, fun v hv hne => ?_⟩
  have hopcode : opcodeOf v = opcodeOf w := BitVec.eq_of_toNat_eq (by rw [opcodeOf_toNat, opcodeOf_toNat, hv])
  have hzero : imm8Of w = 0#8 := by
    by_contra himm
    rw [(decode_eq_none_iff_of_mem_fixedOpcodes hop).2 himm] at hw
    cases hw
  refine (decode_eq_none_iff_of_mem_fixedOpcodes (hopcode ▸ hop)).2 fun himm => hne ?_
  rw [← opcodeOf_append_imm8Of v, ← opcodeOf_append_imm8Of w, hopcode, himm, hzero]

section Session

variable {s : State}

/-- 60_exceptions.md R273: a completion with status `OK` records no error. -/
theorem complete_eq_after_of_ok {st : St} {r : Resp} {outs : List Event} (h : r.status = .ok) :
    complete s st r outs = .next (s.after st r outs) :=
  congrArg _ (s.commit_eq_after_of_ok st outs h)

/-- 60_exceptions.md R273: a completion with an error records it over the state it leaves. -/
theorem complete_eq_after_of_error {st : St} {r : Resp} {outs : List Event} {x : Status} (hr : r.status = x)
    (hx : x ≠ .ok) : complete s st r outs = .next (s.after (st.withError x) r outs) := by
  rw [complete, State.commit_eq_after, hr, St.record_error _ hx]

/-- 00_scope.md R8: a buffer beyond the limit is refused. -/
theorem State.oversize_eq_true_of_not_fits (h : ¬ s.fits) : s.oversize = true := by
  simp only [State.fits, not_forall, Nat.not_le] at h
  obtain ⟨m, hm, hlt⟩ := h
  exact tooLong_eq_true_iff.2 ⟨m, hm, hlt⟩

/-- 44_socket.md R202: `SEND` in `Idle` counts one `TX` and arms the session with the packet. -/
theorem exec_send_of_idle (hidle : s.st.fsm = .idle) (hfits : s.fits) :
    exec .send s = .next (s.after
      (s.st.countTx.arm (buildRaw Config.digest .data s.op.data s.st.cfgMode) s.op.addr) {}
      [.tx (buildRaw Config.digest .data s.op.data s.st.cfgMode) s.op.addr]) := by
  rw [exec, execSend, if_neg (not_not_intro hidle), withBuffer_of_not_oversize hfits.oversize_eq_false]
  exact complete_eq_after_of_ok rfl

/-- 44_socket.md R202: the state is looked at before the buffer. -/
theorem exec_send_of_not_idle (h : s.st.fsm ≠ .idle) : exec .send s = .next (s.afterRaise .invalidState) := by
  rw [exec, execSend, if_pos h, raise_eq (by decide)]

/-- 30_encoding.md R99, point 4. -/
theorem exec_send_of_not_fits (hidle : s.st.fsm = .idle) (hfits : ¬ s.fits) :
    exec .send s = .next (s.afterRaise .oversize) := by
  rw [exec, execSend, if_neg (not_not_intro hidle),
    withBuffer_of_oversize (State.oversize_eq_true_of_not_fits hfits), raise_eq (by decide)]

/-- 44_socket.md R203, R209, R210: `CLOSE`, `TXERR` and `LISTENING` have no effect in `Closed`. -/
theorem exec_eq_after_of_closed {i : Instr} (hi : i ∈ [Instr.close, .txerr, .listening]) (h : s.st.fsm = .closed) :
    exec i s = .next (s.after s.st {} []) := by
  have hnothing : answer s {} = .next (s.after s.st {} []) := answer_eq_after_of_ok rfl
  simp only [List.mem_cons, List.not_mem_nil, or_false] at hi
  obtain rfl | rfl | rfl := hi
  · rw [exec, execClose, if_pos h, hnothing]
  · rw [exec, execTxerr, if_pos h, hnothing]
  · rw [exec, execListening, if_pos h, hnothing]

/-- 44_socket.md R203: `CLOSE` shuts the session and releases the transport. -/
theorem exec_close_of_not_closed (h : s.st.fsm ≠ .closed) :
    exec .close s = .next (s.after s.st.shut {} [.tClose]) := by
  rw [exec, execClose, if_neg h, complete_eq_after_of_ok rfl]

/-- 44_socket.md R204: `BIND` is refused once the transport is released. -/
theorem exec_bind_of_closed (h : s.st.fsm = .closed) : exec .bind s = .next (s.afterRaise .invalidState) := by
  rw [exec, execBind, if_pos h, raise_eq (by decide)]

/-- 44_socket.md R204: `BIND` forwards its address. -/
theorem exec_bind_of_not_closed (h : s.st.fsm ≠ .closed) :
    exec .bind s = .next (s.after s.st {} [.tBind s.op.addr]) := by
  rw [exec, execBind, if_neg h, complete_eq_after_of_ok rfl]

/-- 44_socket.md R209: `TXERR` shuts the session before it surfaces the error. -/
theorem exec_txerr_of_not_closed (h : s.st.fsm ≠ .closed) :
    exec .txerr s = .next (s.after (s.st.shut.withError .transportError) { status := .transportError }
      [.tClose, .error .transportError s.op.val]) := by
  rw [exec, execTxerr, if_neg h, complete_eq_after_of_error rfl (by decide)]

/-- 44_socket.md R210: `LISTENING` is passed on to the host. -/
theorem exec_listening_of_not_closed (h : s.st.fsm ≠ .closed) :
    exec .listening s = .next (s.after s.st {} [.listeningOut]) := by
  rw [exec, execListening, if_neg h, complete_eq_after_of_ok rfl]

end Session

/-- Settles O30: the state decides before the length of the buffer does. -/
theorem sendTransmitsStoresAndArms : Obligations.SendTransmitsStoresAndArms :=
  ⟨soleWord_of_mem_fixedOpcodes (by decide) (by decide),
    fun _ => ⟨exec_send_of_idle, exec_send_of_not_idle, exec_send_of_not_fits⟩⟩

/-- Settles O31: closing is `Disarm` with the session in `Closed`, once. -/
theorem closeDisarmsAndReleasesTheTransport : Obligations.CloseDisarmsAndReleasesTheTransport :=
  ⟨soleWord_of_mem_fixedOpcodes (by decide) (by decide),
    fun _ => ⟨exec_eq_after_of_closed (by decide), exec_close_of_not_closed⟩⟩

/-- Settles O32: both are forwarded from any state but `Closed`, where only `BIND` is an error. -/
theorem bindAndListeningAreForwardedOutsideClosed : Obligations.BindAndListeningAreForwardedOutsideClosed :=
  ⟨soleWord_of_mem_fixedOpcodes (by decide) (by decide), soleWord_of_mem_fixedOpcodes (by decide) (by decide),
    fun _ => ⟨fun h => ⟨exec_bind_of_not_closed h, exec_listening_of_not_closed h⟩,
      fun h => ⟨exec_bind_of_closed h, exec_eq_after_of_closed (by decide) h⟩⟩⟩

/-- Settles O33: the session is shut as by `CLOSE`, and then the error is recorded and surfaced. -/
theorem transportErrorClosesThenSurfaces : Obligations.TransportErrorClosesThenSurfaces :=
  ⟨soleWord_of_mem_fixedOpcodes (by decide) (by decide),
    fun _ => ⟨exec_eq_after_of_closed (by decide), exec_txerr_of_not_closed⟩⟩

end Sys2Proof.Machine

/-!
The family of 45_registers.md: the words of RDREG and WRREG, the register map as a list (R250), and what a write does to
each register, by the outcome of `writeRegister` (R251 to R254).
-/

namespace Sys2Proof.Machine

open Sys2Proof

section RegisterWords

variable {w : Word16}

theorem opcodeOf_eq_iff {a : Byte} : opcodeOf w = a ↔ w.toNat / 256 = a.toNat := by
  rw [← BitVec.toNat_inj, opcodeOf_toNat]

/-- 30_encoding.md R95, second case: the register number is the low byte of the word. -/
theorem registerForm_imm8Of (w : Word16) (f : Nat → Instr) :
    registerForm (imm8Of w) f = if w.toNat % 256 < 16 then some (f (w.toNat % 256)) else none := by
  rw [registerForm_eq, imm8Of_toNat]

theorem decode_rdreg_word (h : w.toNat / 256 = 0x18) :
    decode w = if w.toNat % 256 < 16 then some (.rdreg (w.toNat % 256)) else none :=
  (decode_opcode_rdreg (opcodeOf_eq_iff.2 h)).trans (registerForm_imm8Of w _)

theorem decode_wrreg_word (h : w.toNat / 256 = 0x19) :
    decode w = if w.toNat % 256 < 16 then some (.wrreg (w.toNat % 256)) else none :=
  (decode_opcode_wrreg (opcodeOf_eq_iff.2 h)).trans (registerForm_imm8Of w _)

end RegisterWords

section RegisterMap

/-- The statuses, each at the index that is its code (60_exceptions.md R270). -/
def Status.inCodeOrder : List Status :=
  [.ok, .framingError, .codecUncorrectable, .integrityMismatch, .protocolError, .transportError, .invalidState,
    .illegalOpcode, .invalidArgument, .unknownType, .oversize]

/-- The session states, each at the index that is its code (10_state.md R33). -/
def Fsm.inCodeOrder : List Fsm := [.idle, .awaitingAck, .closed]

theorem Status.code_toNat (x : Status) : x.code.toNat = Status.inCodeOrder.idxOf x := by cases x <;> rfl

theorem Fsm.code_toNat (x : Fsm) : x.code.toNat = Fsm.inCodeOrder.idxOf x := by cases x <;> rfl

theorem Status.code_setWidth (x : Status) : x.code.setWidth 32 = BitVec.ofNat 32 (Status.inCodeOrder.idxOf x) := by
  rw [← Status.code_toNat, BitVec.ofNat_toNat]

theorem ofBool_setWidth (b : Bool) : (BitVec.ofBool b).setWidth 32 = if b then 1#32 else 0#32 := by cases b <;> rfl

/-- 10_state.md R49: the place value of each field of `STATUS`. -/
theorem fields_append_setWidth (pv ta : Bool) (code : BitVec 2) :
    (BitVec.ofBool pv ++ BitVec.ofBool ta ++ code).setWidth 32 =
      BitVec.ofNat 32 ((if pv then 8 else 0) + (if ta then 4 else 0) + code.toNat) := by
  revert pv ta code
  decide

theorem St.statusWord_eq (st : St) : st.statusWord =
    BitVec.ofNat 32 ((if st.pending = none then 0 else 8) + (if st.timerActive then 4 else 0) +
      Fsm.inCodeOrder.idxOf st.fsm) := by
  rw [St.statusWord, fields_append_setWidth, Fsm.code_toNat]
  cases st.pending <;> rfl

/-- The register slots 0 to 9, in order (45_registers.md R250). -/
def St.registerMap (st : St) : List Word32 :=
  [if st.cfgMode then 1#32 else 0#32, st.cfgTimeout,
    BitVec.ofNat 32 ((if st.pending = none then 0 else 8) + (if st.timerActive then 4 else 0) +
      Fsm.inCodeOrder.idxOf st.fsm),
    BitVec.ofNat 32 (Status.inCodeOrder.idxOf st.lastErr),
    st.timerCount, st.sessInterval, st.cntTx, st.cntRetx, st.cntDeliver, st.cntDrop]

theorem readRegister_eq_getElem? (st : St) (reg : Nat) : readRegister st reg = st.registerMap[reg]? := by
  rw [St.registerMap, ← St.statusWord_eq, ← Status.code_setWidth, ← ofBool_setWidth]
  obtain hlt | hge := Nat.lt_or_ge reg 10
  · interval_cases reg <;> rfl
  · exact (readRegister_eq_none_iff.2 hge).trans (List.getElem?_eq_none hge).symm

end RegisterMap

section RegisterOperations

variable {s : State} {reg : Nat}

theorem exec_rdreg_of_some {v : Word32} (h : readRegister s.st reg = some v) :
    exec (.rdreg reg) s = .next (s.after s.st { val := v } []) := by
  rw [exec, execRdreg, h]
  exact answer_eq_after_of_ok rfl

theorem exec_rdreg_of_none (h : readRegister s.st reg = none) :
    exec (.rdreg reg) s = .next (s.afterRaise .invalidArgument) := by
  rw [exec, execRdreg, h]
  exact raise_eq (by decide)

/-- 45_registers.md R251: a write that is taken completes with status `OK` and no event. -/
theorem exec_wrreg_of_ok {st : St} (h : writeRegister s.st reg s.op.val = .ok st) :
    exec (.wrreg reg) s = .next (s.after st {} []) := by
  rw [exec, execWrreg, h]
  exact complete_eq_after_of_ok rfl

/-- 45_registers.md R251: a write that is refused raises. -/
theorem exec_wrreg_of_error {x : Status} (h : writeRegister s.st reg s.op.val = .error x) :
    exec (.wrreg reg) s = .next (s.afterRaise x) := by
  have hx : x ≠ .ok := by obtain rfl | rfl := writeRegister_error_cases h <;> decide
  rw [exec, execWrreg, h]
  exact raise_eq hx

/-- 45_registers.md R251, R254: the read-only registers and the numbers that name none. -/
theorem writeRegister_of_not_writable {st : St} {v : Word32} (h0 : reg ≠ 0) (h1 : reg ≠ 1) (h3 : reg ≠ 3) :
    writeRegister st reg v = .error .invalidArgument := by
  unfold writeRegister
  split
  · exact absurd rfl h0
  · exact absurd rfl h1
  · exact absurd rfl h3
  · rfl

/-- 45_registers.md R252: bits 31:1 of a `CTRL` value are zero in 0 and 1 alone. -/
theorem ctrl_reserved_eq_zero_iff {v : Word32} : v.extractLsb' 1 31 = 0#31 ↔ v.toNat < 2 := by
  have hlt := v.isLt
  rw [← BitVec.toNat_inj, BitVec.extractLsb'_toNat, Nat.shiftRight_eq_div_pow, BitVec.toNat_ofNat]
  omega

theorem exec_wrreg_ctrl_of_not_idle (h : s.st.fsm ≠ .idle) :
    exec (.wrreg 0) s = .next (s.afterRaise .invalidState) :=
  exec_wrreg_of_error (by rw [writeRegister, writeCtrl, if_pos h])

theorem exec_wrreg_ctrl_of_reserved (hidle : s.st.fsm = .idle) (hv : 2 ≤ s.op.val.toNat) :
    exec (.wrreg 0) s = .next (s.afterRaise .invalidArgument) :=
  have hreserved : s.op.val.extractLsb' 1 31 ≠ 0#31 := fun hz => absurd (ctrl_reserved_eq_zero_iff.1 hz) (not_lt.2 hv)
  exec_wrreg_of_error (by rw [writeRegister, writeCtrl, if_neg (not_not_intro hidle), if_pos hreserved])

theorem exec_wrreg_ctrl_of_lt (hidle : s.st.fsm = .idle) (hv : s.op.val.toNat < 2) :
    exec (.wrreg 0) s = .next (s.after { s.st with cfgMode := s.op.val.getLsbD 0 } {} []) :=
  exec_wrreg_of_ok (by rw [writeRegister, writeCtrl, if_neg (not_not_intro hidle),
    if_neg (not_not_intro (ctrl_reserved_eq_zero_iff.2 hv))])

theorem exec_wrreg_timeout_of_zero (h : s.op.val = 0#32) :
    exec (.wrreg 1) s = .next (s.afterRaise .invalidArgument) :=
  exec_wrreg_of_error (by rw [writeRegister, writeTimeout, if_pos h])

theorem exec_wrreg_timeout_of_ne_zero (h : s.op.val ≠ 0#32) :
    exec (.wrreg 1) s = .next (s.after { s.st with cfgTimeout := s.op.val } {} []) :=
  exec_wrreg_of_ok (by rw [writeRegister, writeTimeout, if_neg h])

end RegisterOperations

/-- Settles O40: a read looks its number up in the register map, which ends before 10. -/
theorem rdregReturnsTheRegisterMap : Obligations.RdregReturnsTheRegisterMap :=
  ⟨fun _ => decode_rdreg_word, fun s =>
    ⟨fun n _ hv => exec_rdreg_of_some ((readRegister_eq_getElem? s.st n).trans hv),
      fun _ hn _ => exec_rdreg_of_none (readRegister_eq_none_iff.2 hn)⟩⟩

/-- Settles O41: the two values without reserved bits are the two modes. -/
theorem ctrlWriteNeedsIdleAndZeroReservedBits : Obligations.CtrlWriteNeedsIdleAndZeroReservedBits := by
  refine fun s => ⟨exec_wrreg_ctrl_of_not_idle, exec_wrreg_ctrl_of_reserved, fun hidle hv => ?_, fun hidle hv => ?_⟩
  · rw [exec_wrreg_ctrl_of_lt hidle (by rw [hv]; decide), hv]
    rfl
  · rw [exec_wrreg_ctrl_of_lt hidle (by rw [hv]; decide), hv]
    rfl

/-- Settles O42: the write leaves `Idle` as it is, and the next SEND arms with the value written. -/
theorem timeoutWriteAffectsOnlyLaterSends : Obligations.TimeoutWriteAffectsOnlyLaterSends := by
  refine fun s => ⟨exec_wrreg_timeout_of_zero, exec_wrreg_timeout_of_ne_zero, fun t op ht hv hidle hfits => ?_⟩
  obtain rfl : s.after { s.st with cfgTimeout := s.op.val } {} [] = t :=
    Host.Outcome.next.inj ((exec_wrreg_timeout_of_ne_zero hv).symm.trans ht)
  exact ⟨_, exec_send_of_idle hidle hfits, rfl, rfl⟩

/-- Settles O43: register 3 takes every value, 0 and 1 take or refuse it, and no other register takes one. -/
theorem lastErrWriteClearsAndOtherWritesAreRefused : Obligations.LastErrWriteClearsAndOtherWritesAreRefused := by
  refine ⟨fun _ => decode_wrreg_word, fun s => ⟨exec_wrreg_of_ok rfl,
    fun n _ h0 h1 h3 => exec_wrreg_of_error (writeRegister_of_not_writable h0 h1 h3), ?ctrl, ?timeout⟩⟩
  case ctrl =>
    by_cases hidle : s.st.fsm = .idle
    · obtain hv | hv := Nat.lt_or_ge s.op.val.toNat 2
      · exact .inr (.inr ⟨hidle, hv, exec_wrreg_ctrl_of_lt hidle hv⟩)
      · exact .inr (.inl ⟨hidle, hv, exec_wrreg_ctrl_of_reserved hidle hv⟩)
    · exact .inl ⟨hidle, exec_wrreg_ctrl_of_not_idle hidle⟩
  case timeout =>
    by_cases hv : s.op.val = 0#32
    · exact .inl ⟨hv, exec_wrreg_timeout_of_zero hv⟩
    · exact .inr ⟨hv, exec_wrreg_timeout_of_ne_zero hv⟩

end Sys2Proof.Machine

/-!
The family of 60_exceptions.md: what `last_err` holds at the end of an operation (R273).
-/

namespace Sys2Proof.Machine

open Sys2Proof

section LastErr

/-- The rule of 60_exceptions.md R273 for an operation begun in `s` with the outcome `o`: there is a response, and
`last_err` is the one of `s` with the status recorded over it. -/
def RecordsStatus (s : State) (o : Result) : Prop :=
  ∀ t, o = .next t → ∃ r, t.resp = some r ∧ t.st.lastErr = (s.st.record r.status).lastErr

variable {s : State}

/-- An operation may change any element but `last_err` before its status is recorded. -/
theorem complete_recordsStatus {st : St} {r : Resp} {outs : List Event} (h : st.lastErr = s.st.lastErr) :
    RecordsStatus s (complete s st r outs) := fun t ht => by
  obtain rfl := complete_next_iff.1 ht
  exact ⟨r, rfl, by rw [State.commit_st, St.record_lastErr, St.record_lastErr, h]⟩

theorem answer_recordsStatus (r : Resp) : RecordsStatus s (answer s r) := complete_recordsStatus rfl

theorem raise_recordsStatus (x : Status) : RecordsStatus s (raise s x) := answer_recordsStatus _

/-- 44_socket.md R205: a drop counts, which leaves `last_err` to its status. -/
theorem dropDatagram_recordsStatus (r : Resp) (x : Status) : RecordsStatus s (dropDatagram s r x) :=
  complete_recordsStatus s.st.countDrop_lastErr

/-- What only answers, as the codec, interleaver, framer and register-read operations do (20_memory.md R80). -/
theorem RepeatsItsAnswer.recordsStatus {f : State → Result} (h : RepeatsItsAnswer s f) : RecordsStatus s (f s) := by
  obtain ⟨r, hanswer, -⟩ := h
  rw [hanswer]
  exact answer_recordsStatus r

/-- 45_registers.md R254: register 3 is the one whose write reaches `last_err`. -/
theorem writeRegister_lastErr {st st' : St} {reg : Nat} {v : Word32} (hreg : reg ≠ 3)
    (h : writeRegister st reg v = .ok st') : st'.lastErr = st.lastErr := by
  obtain ⟨-, -, rfl⟩ | ⟨-, -, rfl⟩ | ⟨h3, -⟩ := writeRegister_ok_cases h
  · rfl
  · rfl
  · exact absurd h3 hreg

theorem execWrreg_recordsStatus {reg : Nat} (hreg : reg ≠ 3) : RecordsStatus s (execWrreg reg s) := by
  unfold execWrreg
  split
  · exact raise_recordsStatus _
  · next hw => exact complete_recordsStatus (writeRegister_lastErr hreg hw)

theorem execSend_recordsStatus : RecordsStatus s (execSend s) := by
  unfold execSend
  split
  · exact raise_recordsStatus _
  · obtain ⟨-, e⟩ | ⟨-, e⟩ := withBuffer_cases s _ <;> rw [e]
    · exact raise_recordsStatus _
    · exact complete_recordsStatus rfl

theorem acceptParsed_recordsStatus (r : Parsed) : RecordsStatus s (acceptParsed s r) := by
  unfold acceptParsed acceptAck acceptData
  split
  · split
    · split
      · exact complete_recordsStatus s.st.disarm_lastErr
      · exact answer_recordsStatus _
    · exact complete_recordsStatus rfl
    · exact dropDatagram_recordsStatus _ _
  · exact dropDatagram_recordsStatus _ _

theorem execRx_recordsStatus : RecordsStatus s (execRx s) := by
  obtain ⟨-, e⟩ | ⟨-, -, e⟩ | ⟨-, -, e⟩ := execRx_cases s <;> rw [e]
  · exact answer_recordsStatus _
  · exact dropDatagram_recordsStatus _ _
  · exact acceptParsed_recordsStatus _

theorem retransmit_recordsStatus : RecordsStatus s (retransmit s) := fun _ h => by
  obtain ⟨_, _, -, -, rfl⟩ := retransmit_next_iff.1 h
  exact ⟨_, rfl, rfl⟩

theorem execTick_recordsStatus : RecordsStatus s (execTick s) := by
  obtain ⟨-, e⟩ | ⟨-, -, -, e⟩ | ⟨-, -, -, e⟩ | ⟨-, -, -, -, e⟩ := execTick_cases s <;> rw [e]
  · exact answer_recordsStatus _
  · exact fun _ h => nomatch h
  · exact retransmit_recordsStatus
  · exact complete_recordsStatus rfl

/-- 60_exceptions.md R273 for every operation of 30_encoding.md R93 but a `LAST_ERR` write. -/
theorem exec_recordsStatus {i : Instr} (hi : i ≠ .wrreg 3) : RecordsStatus s (exec i s) := by
  cases i with
  | parity | encw | chk | decw | encode | decode | interleave | deinterleave | parse =>
    exact (exec_answersFromOperands (by decide)).repeatsItsAnswer.recordsStatus
  | build ptype => exact (execBuild_answersFromOperands ptype).repeatsItsAnswer.recordsStatus
  | rdreg reg => exact (execRdreg_repeatsItsAnswer reg).recordsStatus
  | wrreg reg => exact execWrreg_recordsStatus fun h => hi (congrArg _ h)
  | send => exact execSend_recordsStatus
  | rx => exact execRx_recordsStatus
  | tick => exact execTick_recordsStatus
  | close =>
    simp only [exec, execClose]
    split
    · exact answer_recordsStatus _
    · exact complete_recordsStatus s.st.shut_lastErr
  | bind =>
    simp only [exec, execBind]
    split
    · exact raise_recordsStatus _
    · exact complete_recordsStatus rfl
  | txerr =>
    simp only [exec, execTxerr]
    split
    · exact answer_recordsStatus _
    · exact complete_recordsStatus s.st.shut_lastErr
  | listening =>
    simp only [exec, execListening]
    split
    · exact answer_recordsStatus _
    · exact complete_recordsStatus rfl

/-- 45_registers.md R254: a `LAST_ERR` write clears `last_err`, whatever the value. -/
theorem exec_wrreg_lastErr (s : State) :
    exec (.wrreg 3) s = .next (s.after { s.st with lastErr := .ok } {} []) := exec_wrreg_of_ok rfl

end LastErr

/-- Settles O48: a `LAST_ERR` write ends with `OK` in both places, and every other operation records its status. -/
theorem lastErrIsStickyAndRecordsEveryFailure : Obligations.LastErrIsStickyAndRecordsEveryFailure := by
  refine ⟨fun i s t ht => ?_, fun s port op rest hin hd => ?_⟩
  · by_cases hi : i = .wrreg 3
    · rw [hi, exec_wrreg_lastErr] at ht
      cases ht
      exact ⟨{}, rfl, fun herr => absurd rfl herr, fun _ hne => absurd hi hne, fun _ => ⟨rfl, rfl⟩⟩
    · obtain ⟨r, hresp, hlast⟩ := exec_recordsStatus hi t ht
      rw [St.record_lastErr] at hlast
      exact ⟨r, hresp, fun herr => hlast.trans (if_neg herr), fun hok _ => hlast.trans (if_pos hok),
        fun h => absurd h hi⟩
  · exact ⟨_, _, step_eq_afterRaise_of_illegal hin hd, rfl, rfl, rfl⟩

end Sys2Proof.Machine

/-!
The operation words: decoding and encoding agree (30_encoding.md R91 to R95), and a step by the head of the input stream
(00_scope.md R3, 60_exceptions.md R286).
-/

namespace Sys2Proof.Machine

open Sys2Proof

section DecodeEncode

variable {w : Word16} {i : Instr}

/-- 30_encoding.md R91: a word is the encoding of an operation when its two bytes are the operation's. -/
theorem encode_eq_iff : Sys2Proof.encode i = w ↔ opcodeOf w = i.opcode ∧ imm8Of w = i.imm8 := by
  constructor
  · rintro rfl
    exact ⟨opcodeOf_append _ _, imm8Of_append _ _⟩
  · rintro ⟨hop, himm⟩
    rw [Sys2Proof.encode, ← hop, ← himm, opcodeOf_append_imm8Of]

/-- The operations whose immediate must be zero (30_encoding.md R95, first case). -/
def fixedInstrs : List Instr :=
  [.parity, .encw, .chk, .decw, .encode, .decode, .interleave, .deinterleave, .parse, .send, .close, .bind, .rx, .tick,
    .txerr, .listening]

theorem fixedOpcodes_eq_map : fixedOpcodes = fixedInstrs.map Instr.opcode := rfl

theorem fixedInstrs_imm8_wellFormed : ∀ i ∈ fixedInstrs, i.imm8 = 0#8 ∧ i.wellFormed = true := by decide

theorem decode_of_mem_fixedInstrs :
    ∀ i ∈ fixedInstrs, opcodeOf w = i.opcode → decode w = fixedForm (imm8Of w) i := by
  simp only [fixedInstrs, List.forall_mem_cons]
  exact ⟨decode_opcode_parity, decode_opcode_encw, decode_opcode_chk, decode_opcode_decw, decode_opcode_encode,
    decode_opcode_decode, decode_opcode_interleave, decode_opcode_deinterleave, decode_opcode_parse, decode_opcode_send,
    decode_opcode_close, decode_opcode_bind, decode_opcode_rx, decode_opcode_tick, decode_opcode_txerr,
    decode_opcode_listening, nofun⟩

/-- 30_encoding.md R95, second case: the immediate of a register operation is its register number. -/
theorem registerForm_eq_some_iff {imm : Byte} {f : Nat → Instr} :
    registerForm imm f = some i ↔ imm.toNat < 16 ∧ f imm.toNat = i := by
  rw [registerForm_eq]
  split <;> simp_all

/-- 30_encoding.md R92: a register number below 16 is the value of its immediate. -/
theorem ofNat_register_toNat {reg : Nat} (h : reg < 16) : (BitVec.ofNat 8 reg).toNat = reg := by
  rw [BitVec.toNat_ofNat]
  omega

/-- 30_encoding.md R93, R95: a well-formed operation is decoded from its own opcode and immediate. -/
theorem decode_of_bytes (hwf : i.wellFormed = true) (hop : opcodeOf w = i.opcode) (himm : imm8Of w = i.imm8) :
    decode w = some i := by
  by_cases hfixed : i ∈ fixedInstrs
  · rw [decode_of_mem_fixedInstrs i hfixed hop, fixedForm_eq_some_iff]
    exact ⟨himm.trans (fixedInstrs_imm8_wellFormed i hfixed).1, rfl⟩
  cases i with
  | build t => rw [decode_opcode_build hop, himm]; rfl
  | rdreg reg =>
    have hreg := ofNat_register_toNat (of_decide_eq_true hwf)
    rw [decode_opcode_rdreg hop, himm, registerForm_eq_some_iff, Instr.imm8, hreg]
    exact ⟨of_decide_eq_true hwf, rfl⟩
  | wrreg reg =>
    have hreg := ofNat_register_toNat (of_decide_eq_true hwf)
    rw [decode_opcode_wrreg hop, himm, registerForm_eq_some_iff, Instr.imm8, hreg]
    exact ⟨of_decide_eq_true hwf, rfl⟩
  | _ => exact absurd (by decide) hfixed

/-- 30_encoding.md R93 to R95: what a word decodes to is well formed and has the word's two bytes. -/
theorem bytes_of_decode (h : decode w = some i) :
    i.wellFormed = true ∧ opcodeOf w = i.opcode ∧ imm8Of w = i.imm8 := by
  have hassigned : opcodeOf w ∈ assignedOpcodes := by
    by_contra hop
    rw [decode_opcode_unassigned hop] at h
    cases h
  obtain hop | hop | hop := mem_assignedOpcodes_iff.1 hassigned
  · rw [fixedOpcodes_eq_map, List.mem_map] at hop
    obtain ⟨j, hj, hop⟩ := hop
    rw [decode_of_mem_fixedInstrs j hj hop.symm, fixedForm_eq_some_iff] at h
    obtain ⟨himm, rfl⟩ := h
    obtain ⟨hzero, hwf⟩ := fixedInstrs_imm8_wellFormed j hj
    exact ⟨hwf, hop.symm, himm.trans hzero.symm⟩
  · rw [decode_opcode_build hop] at h
    cases h
    exact ⟨rfl, hop, rfl⟩
  · simp only [registerOpcodes, List.mem_cons, List.not_mem_nil, or_false] at hop
    obtain hop | hop := hop
    · rw [decode_opcode_rdreg hop, registerForm_eq_some_iff] at h
      obtain ⟨hlt, rfl⟩ := h
      exact ⟨decide_eq_true hlt, hop, by simp [Instr.imm8]⟩
    · rw [decode_opcode_wrreg hop, registerForm_eq_some_iff] at h
      obtain ⟨hlt, rfl⟩ := h
      exact ⟨decide_eq_true hlt, hop, by simp [Instr.imm8]⟩

end DecodeEncode

/-- Settles O1: both sides say that the operation is well formed and has the two bytes of the word. -/
theorem decodeAndEncodeAgree : Obligations.DecodeAndEncodeAgree := by
  intro w i
  rw [encode_eq_iff]
  exact ⟨bytes_of_decode, fun ⟨hwf, hop, himm⟩ => decode_of_bytes hwf hop himm⟩

/-- Settles O2: the words are fixed, and each is decoded. -/
theorem specWordsDecode : Obligations.SpecWordsDecode := by
  unfold Obligations.SpecWordsDecode
  decide

section StepByInput

variable {s : State} {rest : List Input}

/-- 60_exceptions.md R286: with nothing presented a step changes nothing. -/
theorem step_eq_self (h : s.inputs = []) : step s = .next s := by
  simp [step, fetch, h]

/-- 00_scope.md R3: a step that finds a legal word runs its operation. -/
theorem step_eq_exec {port : Port} {op : Op} {i : Instr} (h : s.inputs = .op port op :: rest)
    (hd : decode op.w = some i) : step s = exec i (s.accept op rest) := by
  simp [step, fetch, h, hd]

end StepByInput

/-- Settles O3: the state that runs the operation is the one that has accepted it. -/
theorem stepRunsTheDecodedOperation : Obligations.StepRunsTheDecodedOperation :=
  fun _ _ _ _ _ hin hd => step_eq_exec hin hd

/-- Settles O6: there is nothing to take up. -/
theorem nothingPresentedHoldsAllState : Obligations.NothingPresentedHoldsAllState :=
  fun _ hin => step_eq_self hin

end Sys2Proof.Machine

/-!
The codec: the syndrome and the parities bit by bit (41_hamming.md R111), codewords and their one and two bit errors
(R124), and the round trip of a buffer (R124, point 4).
-/

namespace Sys2Proof.Machine

open Sys2Proof

section Parities

/-- The positions among `ps` whose index has bit `i` set, on which syndrome bit `i` depends (41_hamming.md R111). -/
def withIndexBit (i : Nat) (ps : List Nat) : List Nat := ps.filter (·.testBit i)

@[simp] theorem parityOver_nil (w : Word16) : parityOver [] w = false := rfl

theorem foldl_xor_getLsbD (ps : List Nat) (w : Word16) (b : Bool) :
    ps.foldl (fun par p => par ^^ w.getLsbD p) b = (b ^^ parityOver ps w) := by
  induction ps generalizing b with
  | nil => exact (Bool.xor_false b).symm
  | cons p ps ih =>
    have hcons : parityOver (p :: ps) w = ((false ^^ w.getLsbD p) ^^ parityOver ps w) := ih _
    rw [List.foldl_cons, ih, hcons, Bool.false_xor, Bool.xor_assoc]

@[simp] theorem parityOver_cons (p : Nat) (ps : List Nat) (w : Word16) :
    parityOver (p :: ps) w = (w.getLsbD p ^^ parityOver ps w) := by
  rw [parityOver, List.foldl_cons, foldl_xor_getLsbD, Bool.false_xor]

theorem parityOver_perm {ps qs : List Nat} (h : ps.Perm qs) (w : Word16) : parityOver ps w = parityOver qs w := by
  rw [parityOver_eq_decide_odd_length, parityOver_eq_decide_odd_length, (h.filter _).length_eq]

theorem parityOver_congr {ps : List Nat} {w w' : Word16} (h : ∀ p ∈ ps, w.getLsbD p = w'.getLsbD p) :
    parityOver ps w = parityOver ps w' := by
  rw [parityOver_eq_decide_odd_length, parityOver_eq_decide_odd_length, List.filter_congr h]

theorem parityOver_xor (ps : List Nat) (w w' : Word16) :
    parityOver ps (w ^^^ w') = (parityOver ps w ^^ parityOver ps w') := by
  induction ps with
  | nil => rfl
  | cons p ps ih => rw [parityOver_cons, parityOver_cons, parityOver_cons, ih, BitVec.getLsbD_xor,
    Bool.xor_assoc, Bool.xor_assoc, Bool.xor_left_comm (w'.getLsbD p)]

theorem parityOver_withIndexBit_cons (i p : Nat) (ps : List Nat) (w : Word16) :
    parityOver (withIndexBit i (p :: ps)) w =
      ((p.testBit i && w.getLsbD p) ^^ parityOver (withIndexBit i ps) w) := by
  cases hp : p.testBit i <;> simp [withIndexBit, hp]

/-- Syndrome bit `i` is the parity of the bits whose position has bit `i` set (41_hamming.md R111). -/
theorem syndromeOver_getLsbD (ps : List Nat) (w : Word16) {i : Nat} (hi : i < 4) :
    (syndromeOver ps w).getLsbD i = parityOver (withIndexBit i ps) w := by
  suffices h : ∀ syn : BitVec 4,
      (ps.foldl (fun syn p => if w.getLsbD p then syn ^^^ BitVec.ofNat 4 p else syn) syn).getLsbD i =
        (syn.getLsbD i ^^ parityOver (withIndexBit i ps) w) by
    rw [syndromeOver, h, BitVec.getLsbD_zero, Bool.false_xor]
  induction ps with
  | nil => exact fun syn => (Bool.xor_false _).symm
  | cons p ps ih =>
    intro syn
    have hbit : (BitVec.ofNat 4 p).getLsbD i = p.testBit i := by
      rw [BitVec.getLsbD_ofNat, decide_eq_true hi, Bool.true_and]
    rw [List.foldl_cons, ih, parityOver_withIndexBit_cons]
    cases hw : w.getLsbD p
    · simp
    · rw [if_pos rfl, BitVec.getLsbD_xor, hbit, Bool.and_true, Bool.xor_assoc]

theorem syndromeOver_xor (ps : List Nat) (w w' : Word16) :
    syndromeOver ps (w ^^^ w') = syndromeOver ps w ^^^ syndromeOver ps w' :=
  BitVec.eq_of_getLsbD_eq fun i hi => by
    rw [BitVec.getLsbD_xor, syndromeOver_getLsbD _ _ hi, syndromeOver_getLsbD _ _ hi, syndromeOver_getLsbD _ _ hi,
      parityOver_xor]

/-- 41_hamming.md R111: the parity bit at position `2 ^ j` is syndrome bit `j`. -/
theorem parityBits_getLsbD_pow (w : Word16) {j : Nat} (hj : j < 4) :
    (parityBits w).getLsbD (2 ^ j) = parityOver (withIndexBit j dataPositions) w := by
  have hinj : ∀ k < 4, 2 ^ j = 2 ^ k → k = j := fun k _ h => (Nat.pow_right_injective le_rfl h).symm
  have hlt : 2 ^ j < 16 := Nat.pow_lt_pow_right (by decide) hj
  rw [parityBits, foldl_or_getLsbD, bitAt_getLsbD, ← syndromeOver_getLsbD _ _ hj, Bool.eq_iff_iff, Bool.or_eq_true,
    List.any_eq_true]
  simp only [List.mem_range, bitAt_getLsbD, Bool.and_eq_true, decide_eq_true_eq]
  constructor
  · rintro (⟨⟨-, hzero⟩, -⟩ | ⟨k, hk, ⟨-, hpow⟩, hbit⟩)
    · exact absurd hzero (Nat.two_pow_pos j).ne'
    · rwa [hinj k hk hpow] at hbit
  · exact fun hbit => .inr ⟨j, hj, ⟨hlt, rfl⟩, hbit⟩

/-- 41_hamming.md R111, with the data positions a parity bit covers listed. -/
theorem parityBits_getLsbD_pow_of_covers (w : Word16) {j p : Nat} {ps : List Nat} (hj : j < 4)
    (hcovers : withIndexBit j dataPositions = p :: ps) :
    (parityBits w).getLsbD (2 ^ j) = ps.foldl (fun par q => par ^^ w.getLsbD q) (w.getLsbD p) := by
  rw [parityBits_getLsbD_pow w hj, hcovers, parityOver, List.foldl_cons, Bool.false_xor]

/-- 41_hamming.md R111: the parity bit at position 0 is the parity of the data bits and of the four others. -/
theorem parityBits_getLsbD_zero (w : Word16) :
    (parityBits w).getLsbD 0 = (parityOver dataPositions w ^^ (parityBits w).getLsbD 1 ^^ (parityBits w).getLsbD 2 ^^
      (parityBits w).getLsbD 4 ^^ (parityBits w).getLsbD 8) := by
  have hpow (j : Nat) (hj : j < 4) : (syndromeOver dataPositions w).getLsbD j = (parityBits w).getLsbD (2 ^ j) := by
    rw [parityBits_getLsbD_pow w hj, syndromeOver_getLsbD _ _ hj]
  have hother : (List.range 4).any
      (fun j => (bitAt (2 ^ j) ((syndromeOver dataPositions w).getLsbD j)).getLsbD 0) = false := by
    rw [List.any_eq_false]
    intro j _
    rw [bitAt_getLsbD]
    simp [(Nat.two_pow_pos j).ne]
  have hzero : (parityBits w).getLsbD 0 = (parityOver dataPositions w ^^ (syndromeOver dataPositions w).getLsbD 0 ^^
      (syndromeOver dataPositions w).getLsbD 1 ^^ (syndromeOver dataPositions w).getLsbD 2 ^^
      (syndromeOver dataPositions w).getLsbD 3) := by
    rw [parityBits, foldl_or_getLsbD, hother, bitAt_getLsbD]
    exact Bool.or_false _
  rw [hzero, hpow 0 (by decide), hpow 1 (by decide), hpow 2 (by decide), hpow 3 (by decide)]
  rfl

end Parities
section Codeword

variable {w : Word16} {d : Data11}

/-- The data positions of a codeword hold the bits `Place` puts there (41_hamming.md R110, R113). -/
theorem encWord_getLsbD_of_mem {p : Nat} (hp : p ∈ dataPositions) :
    (encWord d).getLsbD p = (place d).getLsbD p := by
  obtain ⟨i, hi⟩ := List.mem_iff_getElem?.1 hp
  obtain ⟨hlt, rfl⟩ := dataPositions_getElem?_eq_some_iff.1 hi
  rw [encWord_getLsbD_dataPosition d hlt, place_getLsbD_dataPosition d hlt]

/-- `Place` leaves the positions of the parity bits zero (41_hamming.md R110). -/
theorem place_getLsbD_of_not_mem {p : Nat} (hp : p ∉ dataPositions) : (place d).getLsbD p = false := by
  rw [place, foldl_or_getLsbD, BitVec.getLsbD_zero, Bool.false_or, List.any_eq_false]
  intro k hk
  have hmem : dataPosition k ∈ dataPositions :=
    List.mem_iff_getElem?.2 ⟨k, dataPositions_getElem?_eq_some_iff.2 ⟨List.mem_range.1 hk, rfl⟩⟩
  have hne : ¬ (p < 16 ∧ p = dataPosition k) := fun ⟨_, h⟩ => hp (h ▸ hmem)
  rw [bitAt_getLsbD, decide_eq_false hne, Bool.false_and]
  exact Bool.false_ne_true

/-- The other positions of a codeword hold its parity bits (41_hamming.md R113). -/
theorem encWord_getLsbD_of_not_mem {p : Nat} (hp : p ∉ dataPositions) :
    (encWord d).getLsbD p = (parityBits (place d)).getLsbD p := by
  rw [encWord, BitVec.getLsbD_or, place_getLsbD_of_not_mem hp, Bool.false_or]

/-- The positions with index bit `j` set are the parity bit of `j` and the data positions it covers. -/
theorem withIndexBit_range_perm :
    ∀ j < 4, (withIndexBit j (List.range 16)).Perm (2 ^ j :: withIndexBit j dataPositions) := by decide

/-- 41_hamming.md R124: the check of index bit `j` is even in every codeword. -/
theorem parityOver_withIndexBit_encWord (d : Data11) {j : Nat} (hj : j < 4) :
    parityOver (withIndexBit j (List.range 16)) (encWord d) = false := by
  have hnot : ∀ j < 4, 2 ^ j ∉ dataPositions := by decide
  have hdata : parityOver (withIndexBit j dataPositions) (encWord d) =
      parityOver (withIndexBit j dataPositions) (place d) :=
    parityOver_congr fun p hp => encWord_getLsbD_of_mem (List.mem_of_mem_filter hp)
  rw [parityOver_perm (withIndexBit_range_perm j hj), parityOver_cons, encWord_getLsbD_of_not_mem (hnot j hj),
    parityBits_getLsbD_pow _ hj, hdata, Bool.xor_self]

theorem syndromeOver_encWord (d : Data11) : syndromeOver (List.range 16) (encWord d) = 0#4 :=
  BitVec.eq_of_getLsbD_eq fun j hj => by
    rw [syndromeOver_getLsbD _ _ hj, parityOver_withIndexBit_encWord d hj, BitVec.getLsbD_zero]

/-- 41_hamming.md R124: a codeword has an even number of set bits. -/
theorem parityOver_encWord (d : Data11) : parityOver (List.range 16) (encWord d) = false := by
  have hperm : (List.range 16).Perm (0 :: 1 :: 2 :: 4 :: 8 :: dataPositions) := by decide
  have hdata : parityOver dataPositions (encWord d) = parityOver dataPositions (place d) :=
    parityOver_congr fun p hp => encWord_getLsbD_of_mem hp
  have hparity : ∀ p ∈ [0, 1, 2, 4, 8], (encWord d).getLsbD p = (parityBits (place d)).getLsbD p := fun p hp =>
    encWord_getLsbD_of_not_mem ((by decide : ∀ p ∈ [0, 1, 2, 4, 8], p ∉ dataPositions) p hp)
  simp only [List.forall_mem_cons] at hparity
  obtain ⟨h0, h1, h2, h4, h8, -⟩ := hparity
  simp only [parityOver_perm hperm, parityOver_cons, h0, h1, h2, h4, h8, hdata, parityBits_getLsbD_zero (place d)]
  generalize parityOver dataPositions (place d) = data
  cases data <;> simp

/-- 41_hamming.md R112: the syndrome and overall parity of one flipped bit. -/
theorem syndrome_parity_bit :
    ∀ p < 16, syndromeOver (List.range 16) (1#16 <<< p) = BitVec.ofNat 4 p ∧
      parityOver (List.range 16) (1#16 <<< p) = true := by decide

theorem odd_setPositions_iff : (setPositions w).length % 2 = 1 ↔ parityOver (List.range 16) w = true := by
  rw [parityOver_eq_decide_odd_length, ← setPositions, decide_eq_true_iff]

theorem even_setPositions_iff : (setPositions w).length % 2 = 0 ↔ parityOver (List.range 16) w = false := by
  rw [Bool.eq_false_iff, ne_eq, ← odd_setPositions_iff]
  omega

/-- 41_hamming.md R124, point 1. -/
theorem checkAndCorrect_encWord (d : Data11) : checkAndCorrect (encWord d) = ⟨false, encWord d⟩ :=
  checkAndCorrect_of_even_of_eq_zero (even_setPositions_iff.2 (parityOver_encWord d))
    (syndromeOver_range_eq_zero_iff.1 (syndromeOver_encWord d))

/-- 41_hamming.md R124, point 2: one flipped bit, at any position, is flipped back. -/
theorem checkAndCorrect_encWord_flip (d : Data11) {p : Nat} (hp : p < 16) :
    checkAndCorrect (encWord d ^^^ (1#16 <<< p)) = ⟨false, encWord d⟩ := by
  obtain ⟨hsyn, hpar⟩ := syndrome_parity_bit p hp
  have hodd : parityOver (List.range 16) (encWord d ^^^ (1#16 <<< p)) = true := by
    rw [parityOver_xor, parityOver_encWord, hpar, Bool.false_xor]
  have hpos : positionXor (encWord d ^^^ (1#16 <<< p)) = p := by
    rw [← syndromeOver_range_toNat, syndromeOver_xor, syndromeOver_encWord, hsyn, BitVec.zero_xor, BitVec.toNat_ofNat,
      Nat.mod_eq_of_lt hp]
  rw [checkAndCorrect_of_odd (odd_setPositions_iff.2 hodd), hpos, BitVec.xor_assoc, BitVec.xor_self, BitVec.xor_zero]

/-- 41_hamming.md R124, point 3: two flipped bits leave the parity even and the syndrome the XOR of their positions. -/
theorem checkAndCorrect_encWord_two_flips (d : Data11) {a b : Nat} (ha : a < 16) (hb : b < 16) (hab : a ≠ b) :
    checkAndCorrect (encWord d ^^^ (1#16 <<< a) ^^^ (1#16 <<< b)) =
      ⟨true, encWord d ^^^ (1#16 <<< a) ^^^ (1#16 <<< b)⟩ := by
  obtain ⟨hsyna, hpara⟩ := syndrome_parity_bit a ha
  obtain ⟨hsynb, hparb⟩ := syndrome_parity_bit b hb
  refine checkAndCorrect_of_even_of_ne (even_setPositions_iff.2 ?_) fun hzero => hab ?_
  · rw [parityOver_xor, parityOver_xor, parityOver_encWord, hpara, hparb]
    rfl
  · rw [← syndromeOver_range_eq_zero_iff, syndromeOver_xor, syndromeOver_xor, syndromeOver_encWord, hsyna, hsynb,
      BitVec.zero_xor, BitVec.xor_eq_zero_iff, ← BitVec.toNat_inj, BitVec.toNat_ofNat, BitVec.toNat_ofNat,
      Nat.mod_eq_of_lt ha, Nat.mod_eq_of_lt hb] at hzero
    exact hzero

/-- Two words that agree off position `p` differ by at most a flip there. -/
theorem eq_or_eq_flip {w w' : Word16} {p : Nat} (h : ∀ j < 16, j ≠ p → w.getLsbD j = w'.getLsbD j) :
    w = w' ∨ w = w' ^^^ (1#16 <<< p) := by
  have hbit (j : Nat) (hj : j < 16) : (1#16 <<< p).getLsbD j = decide (j = p) := by
    rw [BitVec.getLsbD_shiftLeft, BitVec.getLsbD_one, Bool.eq_iff_iff]
    simp
    omega
  by_cases hp : w.getLsbD p = w'.getLsbD p
  · refine .inl (BitVec.eq_of_getLsbD_eq fun j hj => ?_)
    by_cases hjp : j = p
    · rw [hjp, hp]
    · exact h j hj hjp
  · refine .inr (BitVec.eq_of_getLsbD_eq fun j hj => ?_)
    rw [BitVec.getLsbD_xor, hbit j hj]
    by_cases hjp : j = p
    · rw [hjp, decide_eq_true rfl, Bool.xor_true, Bool.eq_not]
      exact hp
    · rw [decide_eq_false hjp, Bool.xor_false, h j hj hjp]

/-- 41_hamming.md R124, points 1 and 2: a word that differs from a codeword at one position at most. -/
theorem checkAndCorrect_of_one_bad_bit {p : Nat} (hp : p < 16)
    (h : ∀ j < 16, j ≠ p → w.getLsbD j = (encWord d).getLsbD j) : checkAndCorrect w = ⟨false, encWord d⟩ := by
  obtain rfl | rfl := eq_or_eq_flip h
  · exact checkAndCorrect_encWord d
  · exact checkAndCorrect_encWord_flip d hp

/-- 41_hamming.md R114, R124: the data bits of a codeword are the value it encodes. -/
theorem extract_encWord (d : Data11) : extract (encWord d) = d :=
  BitVec.eq_of_getLsbD_eq fun i hi => by rw [extract_getLsbD _ hi, encWord_getLsbD_dataPosition d hi]

end Codeword

section WordOperations

variable {s : State} {w : Word16} {c : Checked}

/-- 41_hamming.md R117: a value of 16 bits is a word operand. -/
theorem exists_word_of_lt {v : Word32} (h : v.toNat < 65536) : ∃ w : Word16, v = w.setWidth 32 :=
  ⟨v.setWidth 16, BitVec.eq_of_toNat_eq (by simp; omega)⟩

/-- 41_hamming.md R118: what `PARITY` answers for a word. -/
theorem exec_parity_of_word (hv : s.op.val = w.setWidth 32) :
    exec .parity s = .next (s.after s.st { val := (parityBits w).setWidth 32 } []) := by
  rw [exec, execParity, withWord_of_some (wordOperand_eq_some_iff.2 hv)]
  exact answer_eq_after_of_ok rfl

/-- 41_hamming.md R119: what `ENCW` answers for an 11-bit value. -/
theorem exec_encw_of_data {d : Data11} (hv : s.op.val = d.setWidth 32) :
    exec .encw s = .next (s.after s.st { val := (encWord d).setWidth 32 } []) := by
  rw [exec, execEncw, withData11_of_some (dataOperand_eq_some_iff.2 hv)]
  exact answer_eq_after_of_ok rfl

/-- 41_hamming.md R121: what `DECW` answers for a word that `CheckAndCorrect` finds recoverable. -/
theorem exec_decw_of_recoverable {x : Word16} (hv : s.op.val = w.setWidth 32) (hc : checkAndCorrect w = ⟨false, x⟩) :
    exec .decw s = .next (s.after s.st { val := (extract x).setWidth 32 } []) := by
  rw [exec, execDecw, withWord_of_some (wordOperand_eq_some_iff.2 hv), hc]
  exact answer_eq_after_of_ok rfl

/-- 41_hamming.md R121: what `DECW` answers for a word that `CheckAndCorrect` finds unrecoverable. -/
theorem exec_decw_of_unrecoverable {x : Word16} (hv : s.op.val = w.setWidth 32) (hc : checkAndCorrect w = ⟨true, x⟩) :
    exec .decw s = .next (s.after (s.st.withError .codecUncorrectable)
      { status := .codecUncorrectable, unrec := true, val := (extract x).setWidth 32 } []) := by
  rw [exec, execDecw, withWord_of_some (wordOperand_eq_some_iff.2 hv), hc]
  exact answer_eq_after_of_error rfl (by decide)

theorem setWidth_getLsbD_of_lt (w : Word16) {j : Nat} (hj : j < 32) : (w.setWidth 32).getLsbD j = w.getLsbD j := by
  rw [BitVec.getLsbD_setWidth, decide_eq_true hj, Bool.true_and]

end WordOperations

/-- Settles O9: each parity bit is the parity over the data positions it covers, and the rest of the word is zero. -/
theorem parityReturnsSyndromeAndOverallParity : Obligations.ParityReturnsSyndromeAndOverallParity := by
  intro s hlt
  obtain ⟨w, hw⟩ := exists_word_of_lt hlt
  have hv (j : Nat) (hj : j < 32) : s.op.val.getLsbD j = w.getLsbD j := hw ▸ setWidth_getLsbD_of_lt w hj
  have hp (j : Nat) (hj : j < 32) := setWidth_getLsbD_of_lt (parityBits w) hj
  refine ⟨_, exec_parity_of_word hw, ?_, ?_, ?_, ?_, ?_, fun j hj => ?_⟩
  case refine_6 =>
    simp only [List.mem_cons, List.not_mem_nil, or_false, not_or] at hj
    obtain ⟨hj0, hj1, hj2, hj4, hj8⟩ := hj
    have hpow : ∀ k < 4, j ≠ 2 ^ k := fun k hk => by interval_cases k <;> assumption
    rw [BitVec.getLsbD_setWidth, parityBits_getLsbD_eq_false w hj0 hpow, Bool.and_false]
  all_goals simp only [hv, hp, Nat.reduceLT]
  · exact parityBits_getLsbD_pow_of_covers w (j := 0) (p := 3) (ps := [5, 7, 9, 11, 13, 15]) (by decide) (by decide)
  · exact parityBits_getLsbD_pow_of_covers w (j := 1) (p := 3) (ps := [6, 7, 10, 11, 14, 15]) (by decide) (by decide)
  · exact parityBits_getLsbD_pow_of_covers w (j := 2) (p := 5) (ps := [6, 7, 12, 13, 14, 15]) (by decide) (by decide)
  · exact parityBits_getLsbD_pow_of_covers w (j := 3) (p := 9) (ps := [10, 11, 12, 13, 14, 15]) (by decide) (by decide)
  · refine (parityBits_getLsbD_zero w).trans ?_
    simp only [dataPositions, parityOver_cons, parityOver_nil, Bool.xor_false, Bool.xor_assoc]

theorem encWord_injective {d e : Data11} (h : encWord d = encWord e) : d = e := by
  rw [← extract_encWord d, h, extract_encWord]

/-- Settles O10: the codeword holds the data bits, and each check is a parity over the positions it names. -/
theorem encwReturnsTheCodewordOfItsOperand : Obligations.EncwReturnsTheCodewordOfItsOperand := by
  refine ⟨fun s d hv => ⟨encWord d, exec_encw_of_data hv, fun k p hk => ?_, fun j hj => ?_, ?_⟩,
    fun d e => encWord_injective⟩
  · obtain ⟨hlt, rfl⟩ := dataPositions_getElem?_eq_some_iff.1 hk
    exact encWord_getLsbD_dataPosition d hlt
  · have heven := parityOver_withIndexBit_encWord d hj
    rw [parityOver_eq_decide_odd_length, withIndexBit, List.filter_filter, decide_eq_false_iff_not] at heven
    simp only [Bool.and_comm (Nat.testBit _ j)]
    omega
  · exact even_setPositions_iff.2 (parityOver_encWord d)

/-- Settles O12: with at most one flipped bit the codeword comes back, and its data bits are the value. -/
theorem singleBitErrorsAreCorrected : Obligations.SingleBitErrorsAreCorrected := by
  intro s d hval
  have hcorrected : ∃ w : Word16, s.op.val = w.setWidth 32 ∧ checkAndCorrect w = ⟨false, encWord d⟩ := by
    obtain hv | ⟨p, hp, hv⟩ := hval
    · exact ⟨_, hv, checkAndCorrect_encWord d⟩
    · exact ⟨_, hv, checkAndCorrect_encWord_flip d hp⟩
  obtain ⟨w, hv, hc⟩ := hcorrected
  refine ⟨exec_chk_of_recoverable hv hc, ?_⟩
  rw [exec_decw_of_recoverable hv hc, extract_encWord]

/-- Settles O13: two flipped bits leave the parity even and the syndrome nonzero. -/
theorem doubleBitErrorsAreDetected : Obligations.DoubleBitErrorsAreDetected :=
  fun _ d _ _ ha hb hab hv => exec_chk_of_unrecoverable hv (checkAndCorrect_encWord_two_flips d ha hb hab)

/-- 41_hamming.md R114: `DECW`'s value holds the data bits of `CHK`'s and nothing above them. -/
theorem extract_setWidth_bits (w : Word16) :
    (∀ k p, dataPositions[k]? = some p →
      ((extract w).setWidth 32).getLsbD k = (w.setWidth 32 : Word32).getLsbD p) ∧
    ((extract w).setWidth 32 : Word32).toNat < 2048 := by
  refine ⟨fun k p hk => ?_, ?_⟩
  · obtain ⟨hlt, rfl⟩ := dataPositions_getElem?_eq_some_iff.1 hk
    rw [setWidth_getLsbD_of_lt w (Nat.lt_trans (dataPosition_lt k hlt) (by decide)), BitVec.getLsbD_setWidth,
      extract_getLsbD w hlt, decide_eq_true (Nat.lt_trans hlt (by decide)), Bool.true_and]
  · rw [BitVec.toNat_setWidth_of_le (by decide)]
    exact (extract w).isLt

/-- Settles O14: both operations check the word once and report the check; `DECW` then extracts. -/
theorem decwExtractsTheDataBitsOfTheCheckedWord : Obligations.DecwExtractsTheDataBitsOfTheCheckedWord := by
  intro s w hv
  rcases hc : checkAndCorrect w with ⟨unrec, x⟩
  obtain ⟨hbits, hlt⟩ := extract_setWidth_bits x
  cases unrec with
  | false =>
    exact ⟨{ val := x.setWidth 32 }, _, rfl, rfl, exec_chk_of_recoverable hv hc, exec_decw_of_recoverable hv hc, hbits,
      hlt⟩
  | true =>
    exact ⟨{ status := .codecUncorrectable, unrec := true, val := x.setWidth 32 }, _, rfl, rfl,
      exec_chk_of_unrecoverable hv hc, exec_decw_of_unrecoverable hv hc, hbits, hlt⟩

section BufferRoundTrip

/-- Two buffers of one length with the same bits are equal (20_memory.md R71). -/
theorem buffer_ext_bitOf {a b : Buffer} (hlen : a.length = b.length)
    (hbits : ∀ n < 8 * b.length, bitOf a n = bitOf b n) : a = b := by
  refine List.ext_getElem hlen fun k ha hb => BitVec.eq_of_getLsbD_eq fun i hi => ?_
  have hdiv : (8 * k + i) / 8 = k := by omega
  have hmod : (8 * k + i) % 8 = i := by omega
  have hbit := hbits (8 * k + i) (by omega)
  rwa [bitOf, bitOf, hdiv, hmod, List.getD_eq_getElem _ _ ha, List.getD_eq_getElem _ _ hb] at hbit

theorem bitsToBuffer_bitsOf (b : Buffer) : bitsToBuffer (bitsOf b) = b := by
  refine buffer_ext_bitOf (by rw [bitsToBuffer_length, bitsOf_length]; omega) fun n _ => ?_
  rw [bitOf_bitsToBuffer, ← bitOf_eq_bitsOf_getD]

/-- A buffer followed by the zeros that fill its last 11-byte chunk (41_hamming.md R124, point 4). -/
def padded (b : Buffer) : Buffer := b ++ zeros (11 * ((b.length + 10) / 11) - b.length)

theorem padded_length (b : Buffer) : (padded b).length = 11 * ((b.length + 10) / 11) := by
  rw [padded, List.length_append, zeros_length]
  omega

theorem bitOf_padded (b : Buffer) (n : Nat) : bitOf (padded b) n = bitOf b n := bitOf_append_zeros b _ n

/-- 41_hamming.md R116: a coded buffer whose every word is checked to the codeword of `b`'s decodes to `b`, padded. -/
theorem decodeBuffer_of_checked {b coded : Buffer} (hlen : coded.length = 16 * ((b.length + 10) / 11))
    (hwords : ∀ k < 8 * ((b.length + 10) / 11),
      checkAndCorrect (readWordLE coded (2 * k)) = ⟨false, encWord (dataWord (bitsOf b) k)⟩) :
    decodeBuffer coded = ⟨.ok, true, padded b⟩ := by
  have hcount : coded.length / 16 = (b.length + 10) / 11 := by omega
  have hvalid : blocksValid ((b.length + 10) / 11) coded = true :=
    blocksValid_eq_true_iff.2 fun k hk => by rw [hwords k hk]
  have hdata : decodeBlocks ((b.length + 10) / 11) coded = padded b := by
    refine buffer_ext_bitOf (by rw [decodeBlocks_length, padded_length]) fun n hn => ?_
    rw [padded_length] at hn
    have hk : n / 11 < 8 * ((b.length + 10) / 11) := by omega
    have hi : n % 11 < 11 := Nat.mod_lt _ (by decide)
    have hbit := bitOf_decodeBlocks coded hk hi
    rwa [hwords _ hk, encWord_getLsbD_dataPosition _ hi, dataWord_bitsOf_getLsbD _ _ hi, Nat.div_add_mod,
      ← bitOf_padded b] at hbit
  rw [decodeBuffer_aligned (by omega), hcount, hvalid, hdata]
  rfl

/-- 41_hamming.md R115: word `k` of a coded buffer. -/
theorem readWordLE_encodeBuffer (b : Buffer) {k : Nat} (hk : k < 8 * ((b.length + 10) / 11)) :
    readWordLE (encodeBuffer b) (2 * k) = encWord (dataWord (bitsOf b) k) :=
  readWordLE_encodeChunks b hk

/-- 41_hamming.md R124, point 4. -/
theorem decodeBuffer_encodeBuffer (b : Buffer) : decodeBuffer (encodeBuffer b) = ⟨.ok, true, padded b⟩ :=
  decodeBuffer_of_checked (encodeBuffer_length b) fun k hk => by
    rw [readWordLE_encodeBuffer b hk, checkAndCorrect_encWord]

/-- 41_hamming.md R123: `DECODE` of a buffer all of whose words are recoverable. -/
theorem exec_decode_of_decoded {s : State} {b : Buffer} (hfits : s.fits)
    (h : decodeBuffer s.op.data = ⟨.ok, true, b⟩) :
    exec .decode s = .next (s.after s.st { valid := true, data := b } []) := by
  rw [exec_decode hfits, h]
  exact answer_eq_after_of_ok rfl

end BufferRoundTrip

/-- Settles O16: the bits of a packed sequence are the sequence, and they fix the buffer. -/
theorem bitsToBufferPacksAndInvertsBitsOf : Obligations.BitsToBufferPacksAndInvertsBitsOf :=
  ⟨fun s => ⟨bitsToBuffer_length s, bitOf_bitsToBuffer s⟩, bitsToBuffer_bitsOf⟩

/-- Settles O19: every word of the coded buffer is a codeword, so the bits that come back are the operand's. -/
theorem decodeInvertsEncode : Obligations.DecodeInvertsEncode := by
  refine fun s hfits => ⟨_, exec_encode hfits, fun u hu hufits => ?_⟩
  exact exec_decode_of_decoded hufits (hu ▸ decodeBuffer_encodeBuffer s.op.data)

end Sys2Proof.Machine

/-!
The interleaver: the bits that one block's deinterleaving moves (42_interleaver.md R151), the inverse laws (R152), and
one bad byte in a block as at most one bad bit in each of its words (R153).
-/

namespace Sys2Proof.Machine

open Sys2Proof

section DeinterleavedBits

/-- 42_interleaver.md R151: bit `j` of word `w` of a deinterleaved block is bit `w` of byte `j` of the block. -/
theorem bitOf_deinterleaveBlock (block : Buffer) {j w : Nat} (hj : j < 16) (hw : w < 8) :
    bitOf (deinterleaveBlock block) (16 * w + j) = bitOf block (8 * j + w) := by
  have hidx : 16 * w + j < 128 := by omega
  have hbyte : (8 * j + w) / 8 = j := by omega
  have hbit : (8 * j + w) % 8 = w := by omega
  have hmod : (16 * w + j) % 16 = j := by omega
  have hdiv : (16 * w + j) / 16 = w := by omega
  rw [deinterleaveBlock, bitOf_bitsToBuffer, List.getD_eq_getElem?_getD, List.getElem?_map, List.getElem?_range hidx,
    Option.map_some, Option.getD_some, hmod, hdiv, bitOf, hbyte, hbit]

/-- 42_interleaver.md R151, counted over all blocks. -/
theorem bitOf_mapBlocks_deinterleaveBlock (b : Buffer) {n blk j w : Nat} (hblk : blk < n) (hj : j < 16) (hw : w < 8) :
    bitOf (mapBlocks deinterleaveBlock n b) (128 * blk + (16 * w + j)) = bitOf b (128 * blk + (8 * j + w)) := by
  rw [bitOf_mapBlocks deinterleaveBlock_length b hblk (by omega), bitOf_deinterleaveBlock _ hj hw,
    bitOf_take _ (by omega), bitOf_drop, show 8 * (16 * blk) = 128 * blk by omega]

end DeinterleavedBits

section DeinterleaveOperation

variable {s : State}

theorem deinterleave_eq_none_iff {b : Buffer} : deinterleave b = none ↔ b.length % 16 ≠ 0 := by
  simp [Option.eq_none_iff_forall_ne_some, deinterleave_eq_some_iff]

/-- 42_interleaver.md R155: `DEINTERLEAVE` answers what `Deinterleave` gives for its operand. -/
theorem exec_deinterleave (h : s.fits) : exec .deinterleave s = answerBlocks s (deinterleave s.op.data) := by
  rw [exec, execDeinterleave, withBuffer_of_not_oversize h.oversize_eq_false]

theorem exec_deinterleave_of_misaligned (h : s.fits) (hlen : s.op.data.length % 16 ≠ 0) :
    exec .deinterleave s = .next (s.afterRaise .framingError) := by
  rw [exec_deinterleave h, deinterleave_eq_none_iff.2 hlen, answerBlocks_none]

theorem exec_deinterleave_of_some (h : s.fits) {coded : Buffer} (hc : deinterleave s.op.data = some coded) :
    exec .deinterleave s = .next (s.after s.st { data := coded } []) := by
  rw [exec_deinterleave h, hc, answerBlocks_some]

end DeinterleaveOperation

/-- Settles O21: stream bit `i` of a block is bit `i mod 16` of its word `i div 16`. -/
theorem deinterleaveReadsBitIFromByteIMod16 : Obligations.DeinterleaveReadsBitIFromByteIMod16 := by
  refine fun s hfits => ⟨exec_deinterleave_of_misaligned hfits, fun hlen => ?_⟩
  refine ⟨_, exec_deinterleave_of_some hfits (deinterleave_eq_some_iff.2 ⟨hlen, rfl⟩),
    mapBlocks_length_of_aligned deinterleaveBlock_length hlen, fun blk i hblk hi => ?_⟩
  have hbits := bitOf_mapBlocks_deinterleaveBlock s.op.data hblk (Nat.mod_lt i (by decide)) (show i / 16 < 8 by omega)
  rwa [Nat.div_add_mod, show 128 * blk + (8 * (i % 16) + i / 16) = 8 * (16 * blk + i % 16) + i / 16 by omega] at hbits

section InverseLaws

/-- 42_interleaver.md R152: a function of blocks does the first block by itself. -/
theorem mapBlocks_append_block (f : Buffer → Buffer) {a : Buffer} (ha : a.length = 16) (b : Buffer) :
    mapBlocks f ((a ++ b).length / 16) (a ++ b) = mapBlocks f (a.length / 16) a ++ mapBlocks f (b.length / 16) b := by
  have hcount : (a ++ b).length / 16 = b.length / 16 + 1 := by
    rw [List.length_append]
    omega
  have htake : (a ++ b).take 16 = a := by rw [← ha, List.take_left]
  have hdrop : (a ++ b).drop 16 = b := by rw [← ha, List.drop_left]
  rw [hcount, mapBlocks_succ, htake, hdrop, ha, mapBlocks_succ, List.take_of_length_le ha.le]
  simp

/-- 42_interleaver.md R152. -/
theorem interleave_append_block {a b : Buffer} (ha : a.length = 16) (hb : b.length % 16 = 0) :
    interleave (a ++ b) = (interleave a).bind (fun x => (interleave b).map fun y => x ++ y) := by
  have hab : (a ++ b).length % 16 = 0 := by
    rw [List.length_append]
    omega
  rw [interleave_eq_some_iff.2 ⟨hab, rfl⟩, interleave_eq_some_iff.2 ⟨(by omega : a.length % 16 = 0), rfl⟩,
    interleave_eq_some_iff.2 ⟨hb, rfl⟩, mapBlocks_append_block _ ha]
  rfl

/-- 42_interleaver.md R152. -/
theorem deinterleave_append_block {a b : Buffer} (ha : a.length = 16) (hb : b.length % 16 = 0) :
    deinterleave (a ++ b) = (deinterleave a).bind (fun x => (deinterleave b).map fun y => x ++ y) := by
  have hab : (a ++ b).length % 16 = 0 := by
    rw [List.length_append]
    omega
  rw [deinterleave_eq_some_iff.2 ⟨hab, rfl⟩, deinterleave_eq_some_iff.2 ⟨(by omega : a.length % 16 = 0), rfl⟩,
    deinterleave_eq_some_iff.2 ⟨hb, rfl⟩, mapBlocks_append_block _ ha]
  rfl

/-- 42_interleaver.md R152: what `Interleave` moves, `Deinterleave` moves back. -/
theorem deinterleave_of_interleave {b x : Buffer} (h : interleave b = some x) : deinterleave x = some b := by
  have hxlen := interleave_length h
  obtain ⟨hb, rfl⟩ := interleave_eq_some_iff.1 h
  refine deinterleave_eq_some_iff.2 ⟨by rwa [hxlen], ?_⟩
  rw [hxlen]
  refine buffer_ext_bitOf (by rw [mapBlocks_length deinterleaveBlock_length]; omega) fun n hn => ?_
  rw [mapBlocks_length deinterleaveBlock_length] at hn
  obtain ⟨blk, w, j, hblk, hw, hj, rfl⟩ :
      ∃ blk w j, blk < b.length / 16 ∧ w < 8 ∧ j < 16 ∧ n = 128 * blk + (16 * w + j) :=
    ⟨n / 128, n % 128 / 16, n % 16, by omega, by omega, by omega, by omega⟩
  rw [bitOf_mapBlocks_deinterleaveBlock _ hblk hj hw, bitOf_mapBlocks_interleaveBlock _ hblk hj hw]

/-- 42_interleaver.md R152: what `Deinterleave` moves, `Interleave` moves back. -/
theorem interleave_of_deinterleave {b y : Buffer} (h : deinterleave b = some y) : interleave y = some b := by
  have hylen := deinterleave_length h
  obtain ⟨hb, rfl⟩ := deinterleave_eq_some_iff.1 h
  refine interleave_eq_some_iff.2 ⟨by rwa [hylen], ?_⟩
  rw [hylen]
  refine buffer_ext_bitOf (by rw [mapBlocks_length interleaveBlock_length]; omega) fun n hn => ?_
  rw [mapBlocks_length interleaveBlock_length] at hn
  obtain ⟨blk, j, w, hblk, hj, hw, rfl⟩ :
      ∃ blk j w, blk < b.length / 16 ∧ j < 16 ∧ w < 8 ∧ n = 128 * blk + (8 * j + w) :=
    ⟨n / 128, n % 128 / 8, n % 8, by omega, by omega, by omega, by omega⟩
  rw [bitOf_mapBlocks_interleaveBlock _ hblk hj hw, bitOf_mapBlocks_deinterleaveBlock _ hblk hj hw]

end InverseLaws

/-- Settles O22: each direction answers on whole blocks, keeps the length, and undoes the other. -/
theorem interleaverDirectionsAreInverse : Obligations.InterleaverDirectionsAreInverse := by
  intro b hb
  have hinter := interleave_eq_some_iff.2 ⟨hb, rfl⟩
  have hdeinter := deinterleave_eq_some_iff.2 ⟨hb, rfl⟩
  exact ⟨⟨_, hinter, interleave_length hinter, deinterleave_of_interleave hinter⟩,
    ⟨_, hdeinter, deinterleave_length hdeinter, interleave_of_deinterleave hdeinter⟩,
    fun a ha => ⟨interleave_append_block ha hb, deinterleave_append_block ha hb⟩⟩

section BurstProperty

/-- 42_interleaver.md R151: bit `j` of word `k` of a deinterleaved buffer is a bit of byte `j` of the word's block. -/
theorem readWordLE_deinterleave_getLsbD {r coded : Buffer} (h : deinterleave r = some coded) {k j : Nat}
    (hk : 2 * k < r.length) (hj : j < 16) :
    (readWordLE coded (2 * k)).getLsbD j = (r.getD (16 * (k / 8) + j) 0#8).getLsbD (k % 8) := by
  obtain ⟨hlen, rfl⟩ := deinterleave_eq_some_iff.1 h
  have hw : k % 8 < 8 := Nat.mod_lt k (by decide)
  have hbyte : (128 * (k / 8) + (8 * j + k % 8)) / 8 = 16 * (k / 8) + j := by omega
  have hbit : (128 * (k / 8) + (8 * j + k % 8)) % 8 = k % 8 := by omega
  rw [readWordLE_getLsbD _ _ hj, show 8 * (2 * k) + j = 128 * (k / 8) + (16 * (k % 8) + j) by omega,
    bitOf_mapBlocks_deinterleaveBlock r (by omega) hj hw, bitOf, hbyte, hbit]

/-- At most one byte of a block is replaced, so there is a position off which the two buffers agree. -/
theorem OneBadBytePerBlock.exists_position {r r' : Buffer} (h : OneBadBytePerBlock r r') (blk : Nat) :
    ∃ p < 16, ∀ j < 16, j ≠ p → r'[16 * blk + j]? = r[16 * blk + j]? := by
  by_cases hbad : ∃ p < 16, r'[16 * blk + p]? ≠ r[16 * blk + p]?
  · obtain ⟨p, hp, hne⟩ := hbad
    refine ⟨p, hp, fun j hj hjp => ?_⟩
    by_contra hnej
    exact hjp (h.2 blk j p hj hp hnej hne)
  · push Not at hbad
    exact ⟨0, by decide, fun j hj _ => hbad j hj⟩

/-- 42_interleaver.md R153: with one bad byte in each block of an interleaved coded buffer, each word of what
`Deinterleave` returns has one bad bit at most, so all of it decodes. -/
theorem decodeBuffer_of_oneBadByte {b r r' : Buffer} (hr : interleave (encodeBuffer b) = some r)
    (hbad : OneBadBytePerBlock r r') :
    ∃ coded, deinterleave r' = some coded ∧ decodeBuffer coded = ⟨.ok, true, padded b⟩ := by
  have hlen : r.length = 16 * ((b.length + 10) / 11) := (interleave_length hr).trans (encodeBuffer_length b)
  have hlen' : r'.length = 16 * ((b.length + 10) / 11) := hbad.1.trans hlen
  have hcoded := deinterleave_eq_some_iff.2 ⟨(by omega : r'.length % 16 = 0), rfl⟩
  refine ⟨_, hcoded, decodeBuffer_of_checked ((deinterleave_length hcoded).trans hlen') fun k hk => ?_⟩
  obtain ⟨p, hp, hagree⟩ := hbad.exists_position (k / 8)
  refine checkAndCorrect_of_one_bad_bit hp fun j hj hjp => ?_
  rw [← readWordLE_encodeBuffer b hk, readWordLE_deinterleave_getLsbD hcoded (by omega) hj,
    readWordLE_deinterleave_getLsbD (deinterleave_of_interleave hr) (by omega) hj, List.getD_eq_getElem?_getD,
    List.getD_eq_getElem?_getD, hagree j hj hjp]

end BurstProperty

/-- Settles O23: one bad byte in a block is one bad bit at most in each of its eight words. -/
theorem oneBadBytePerInterleavedBlockIsCorrected : Obligations.OneBadBytePerInterleavedBlockIsCorrected := by
  intro b r s hr hbad hfits
  obtain ⟨coded, hcoded, hdecoded⟩ := decodeBuffer_of_oneBadByte hr hbad
  exact ⟨coded, exec_deinterleave_of_some hfits hcoded, fun u hu hufits =>
    exec_decode_of_decoded hufits (hu ▸ hdecoded)⟩

end Sys2Proof.Machine

/-!
Packets: what PARSE finds in a received buffer that decodes to a framed packet (43_framer.md R175, R176, R180, R181),
and what RX does with it (44_socket.md R205 to R207).
-/

namespace Sys2Proof.Machine

open Sys2Proof

section Received

variable {raw : Buffer} {mode : Bool} {t : Byte} {msg : Buffer} {h : Vector Byte 16}

/-- The buffer `raw`, received in a mode, decodes to `b` with its zero padding and no word unrecoverable. -/
def Carries (raw : Buffer) (mode : Bool) (b : Buffer) : Prop :=
  ∃ coded, codedOf raw mode = some coded ∧ decodeBuffer coded = ⟨.ok, true, padded b⟩

/-- 43_framer.md R173, R180: what is transmitted in a mode is received in that mode. -/
theorem carries_transmitted (framed : Buffer) (mode : Bool) : Carries (transmitted framed mode) mode framed := by
  refine ⟨encodeBuffer framed, codedOf_eq_some_iff.2 ⟨?_, ?_⟩, decodeBuffer_encodeBuffer framed⟩
  · rintro rfl
    rfl
  · rintro rfl
    exact deinterleave_of_interleave (interleave_encodeBuffer framed)

/-- 42_interleaver.md R153: in mode 1 one bad byte in each block does no harm. -/
theorem carries_of_oneBadByte {framed : Buffer} (hbad : OneBadBytePerBlock (transmitted framed true) raw) :
    Carries raw true framed :=
  decodeBuffer_of_oneBadByte (interleave_encodeBuffer framed) hbad

/-- A received buffer that carries `b` is whole blocks, one for each chunk of `b`. -/
theorem length_of_decodeBuffer {coded b : Buffer} (hd : decodeBuffer coded = ⟨.ok, true, padded b⟩) :
    coded.length = 16 * ((b.length + 10) / 11) := by
  have haligned : coded.length % 16 = 0 := by
    by_contra hlen
    rw [decodeBuffer_misaligned hlen] at hd
    cases hd
  have hdata : decodeBlocks (coded.length / 16) coded = padded b := by
    rw [decodeBuffer_aligned haligned] at hd
    exact congrArg Decoded.data hd
  have hlen := congrArg List.length hdata
  rw [decodeBlocks_length, padded_length] at hlen
  omega

/-- 43_framer.md R172: digest field, type and padding byte are the 18 bytes in front of the message. -/
theorem packet_length (h : Vector Byte 16) (t : Byte) (msg : Buffer) :
    (h.toList ++ packetContent t msg).length = 18 + msg.length := by
  simp only [packetContent, List.length_append, Vector.length_toList, List.length_cons]
  omega

/-- 43_framer.md R171, R172: a framed packet, padded by the encoder. -/
theorem padded_packet (h : Vector Byte 16) (t : Byte) (msg : Buffer) :
    padded (h.toList ++ packetContent t msg) = h.toList ++ packetContent t msg ++ zeros (paddingSize msg.length) := by
  have hfill := header_add_paddingSize msg.length
  rw [padded, packet_length]
  congr 2
  omega

/-- 43_framer.md R175: the type and padding bytes of a padded packet. -/
theorem padded_packet_header (h : Vector Byte 16) (t : Byte) (msg : Buffer) :
    (padded (h.toList ++ packetContent t msg)).getD 16 0#8 = t ∧
      (padded (h.toList ++ packetContent t msg)).getD 17 0#8 = BitVec.ofNat 8 (paddingSize msg.length) := by
  have hget (i : Nat) : (padded (h.toList ++ packetContent t msg)).getD (16 + i) 0#8 =
      (packetContent t msg ++ zeros (paddingSize msg.length)).getD i 0#8 := by
    rw [padded_packet, List.append_assoc, List.getD_append_right _ _ _ _ (by simp), Vector.length_toList,
      Nat.add_sub_cancel_left]
  exact ⟨hget 0, hget 1⟩

/-- 43_framer.md R175: the message of a padded packet ends where its padding begins. -/
theorem messageEnd_packet (h : Vector Byte 16) (t : Byte) (msg : Buffer) :
    messageEnd (padded (h.toList ++ packetContent t msg)) = 18 + msg.length := by
  rw [messageEnd, (padded_packet_header h t msg).2, paddingSize_byte_toNat, padded_packet, List.length_append,
    packet_length, zeros_length, headerLen]
  omega

/-- 43_framer.md R175, R176: what the parser finds in a padded packet with the digest field `h`. -/
theorem parseDecoded_packet (digest : Buffer → Vector Byte 16) (h : Vector Byte 16) (t : Byte) (msg : Buffer)
    {dm : Bool} (hdm : dm = true ↔ digest (packetContent t msg) = h) :
    parseDecoded digest true (padded (h.toList ++ packetContent t msg)) =
      ⟨parseStatus true dm, dm, true, dm, t, BitVec.ofNat 8 (paddingSize msg.length), msg⟩ := by
  have hframed : (padded (h.toList ++ packetContent t msg)).take (18 + msg.length) =
      h.toList ++ packetContent t msg := by
    rw [padded_packet, List.take_left' (packet_length h t msg)]
  have hdigest : (padded (h.toList ++ packetContent t msg)).take 16 = h.toList := by
    rw [padded_packet, List.append_assoc, List.take_left' (by simp)]
  have hcontent : (h.toList ++ packetContent t msg).drop 16 = packetContent t msg := List.drop_left' (by simp)
  have hmsg : (h.toList ++ packetContent t msg).drop 18 = msg := by
    rw [← List.drop_drop (i := 2) (j := 16), hcontent]
    rfl
  obtain ⟨htype, hpad⟩ := padded_packet_header h t msg
  have hcheck : dm = true ↔ (digest (((padded (h.toList ++ packetContent t msg)).take
      (messageEnd (padded (h.toList ++ packetContent t msg)))).drop 16)).toList =
        (padded (h.toList ++ packetContent t msg)).take 16 := by
    rw [messageEnd_packet, hframed, hcontent, hdigest, Vector.toList_inj, hdm]
  rw [parseDecoded_eq hcheck, messageEnd_packet, hframed, hmsg, htype, hpad, Bool.true_and]

/-- 43_framer.md R174 to R176: what `ParseRaw` finds in a received buffer that carries a packet with the digest field
`h`. -/
theorem parseRaw_of_carries {digest : Buffer → Vector Byte 16} (hc : Carries raw mode (h.toList ++ packetContent t msg))
    {dm : Bool} (hdm : dm = true ↔ digest (packetContent t msg) = h) :
    parseRaw digest raw mode =
      ⟨parseStatus true dm, dm, true, dm, t, BitVec.ofNat 8 (paddingSize msg.length), msg⟩ := by
  obtain ⟨coded, hcoded, hdecoded⟩ := hc
  have hlen := length_of_decodeBuffer hdecoded
  rw [packet_length] at hlen
  rw [parseRaw_decoded (by rw [← codedOf_length hcoded]; omega) hcoded (by omega), hdecoded,
    parseDecoded_packet _ _ _ _ hdm]

/-- The record of a valid packet of type byte `t` around `msg` (43_framer.md R174). -/
def Parsed.ofPacket (t : Byte) (msg : Buffer) : Parsed :=
  ⟨.ok, true, true, true, t, BitVec.ofNat 8 (paddingSize msg.length), msg⟩

/-- 43_framer.md R180, for a packet received as it was sealed. -/
theorem parseRaw_of_carries_sealed {digest : Buffer → Vector Byte 16}
    (hc : Carries raw mode (sealContent digest (packetContent t msg))) :
    parseRaw digest raw mode = .ofPacket t msg :=
  parseRaw_of_carries hc (dm := true) ⟨fun _ => rfl, fun _ => rfl⟩

/-- 43_framer.md R180: a sealed packet parses back in the mode it was transmitted in. -/
theorem parseRaw_sealedPacket (t : Byte) (msg : Buffer) (mode : Bool) :
    parseRaw Config.digest (sealedPacket t msg mode) mode = .ofPacket t msg :=
  parseRaw_of_carries_sealed (carries_transmitted _ _)

/-- 43_framer.md R181: a digest field that is not the digest of the content. -/
theorem parseRaw_of_wrong_digest {digest : Buffer → Vector Byte 16} (hne : h ≠ digest (packetContent t msg))
    (mode : Bool) :
    parseRaw digest (transmitted (h.toList ++ packetContent t msg) mode) mode =
      ⟨.integrityMismatch, false, true, false, t, BitVec.ofNat 8 (paddingSize msg.length), msg⟩ :=
  parseRaw_of_carries (carries_transmitted _ _) (dm := false)
    ⟨fun hf => absurd hf Bool.false_ne_true, fun he => absurd he.symm hne⟩

end Received

section ParseOperation

variable {s : State} {t : Byte} {msg : Buffer}

/-- 43_framer.md R179: `PARSE` of a valid packet. -/
theorem exec_parse_of_packet (hfits : s.fits) (hr : parseRaw Config.digest s.op.data s.st.cfgMode = .ofPacket t msg) :
    exec .parse s = .next (s.after s.st
      { valid := true, hvalid := true, dmatch := true, ptype := t, pad := BitVec.ofNat 8 (paddingSize msg.length),
        data := msg } []) := by
  rw [exec_parse hfits hr]
  rfl

end ParseOperation

/-- Settles O27: what BUILD returns is a sealed packet, and PARSE finds its type, padding and message. -/
theorem builtPacketsParseBack : Obligations.BuiltPacketsParseBack := by
  refine fun s t hfits ht => ⟨_, exec_build_of_type hfits ht, fun u hdata hmode hufits => ?_⟩
  have hparsed : parseRaw Config.digest u.op.data u.st.cfgMode = .ofPacket t (if t = 1#8 then s.op.data else []) := by
    rw [hdata, hmode, parseRaw_sealedPacket]
  rw [exec_parse_of_packet hufits hparsed, apply_ite List.length]
  rfl

section ReceiveOperation

variable {s : State} {r : Parsed} {t : Byte} {msg : Buffer}

/-- 44_socket.md R205: `RX` in `Closed`. -/
theorem exec_rx_of_closed (h : s.st.fsm = .closed) : exec .rx s = .next (s.after s.st {} []) := by
  rw [exec, execRx, if_pos h]
  exact answer_eq_after_of_ok rfl

/-- 44_socket.md R205: outside `Closed` a datagram that fits is parsed in the current mode. -/
theorem exec_rx_of_parsed (hopen : s.st.fsm ≠ .closed) (hfits : s.fits)
    (hr : parseRaw Config.digest s.op.data s.st.cfgMode = r) : exec .rx s = acceptParsed s r := by
  rw [exec, execRx, if_neg hopen, hfits.oversize_eq_false, hr]
  rfl

/-- 44_socket.md R205: a datagram that does not parse is dropped with the status of the parse. -/
theorem acceptParsed_of_invalid (hv : r.valid = false) (hx : r.status ≠ .ok) :
    acceptParsed s r =
      .next (s.after (s.st.countDrop.withError r.status) { r.flags with status := r.status } []) := by
  rw [acceptParsed, hv]
  exact dropDatagram_eq hx

/-- 44_socket.md R207: a valid Data packet. -/
theorem acceptParsed_data (msg : Buffer) :
    acceptParsed s (.ofPacket 1#8 msg) = .next (s.after s.st.countDeliver.countTx (Parsed.ofPacket 1#8 msg).flags
      [.deliver msg s.op.addr, .tx (buildRaw Config.digest .ack [] s.st.cfgMode) s.op.addr]) :=
  complete_eq_after_of_ok (s := s) rfl

/-- 44_socket.md R206: a valid Acknowledgement in `AwaitingAck`. -/
theorem acceptParsed_ack_of_awaitingAck (h : s.st.fsm = .awaitingAck) (msg : Buffer) :
    acceptParsed s (.ofPacket 2#8 msg) =
      .next (s.after { s.st.disarm with fsm := .idle } (Parsed.ofPacket 2#8 msg).flags []) := by
  have hack : acceptParsed s (.ofPacket 2#8 msg) = acceptAck s (Parsed.ofPacket 2#8 msg).flags := rfl
  rw [hack, acceptAck, if_pos h]
  exact complete_eq_after_of_ok rfl

/-- 44_socket.md R206: a valid Acknowledgement that nothing waits for. -/
theorem acceptParsed_ack_of_not_awaitingAck (h : s.st.fsm ≠ .awaitingAck) (msg : Buffer) :
    acceptParsed s (.ofPacket 2#8 msg) = .next (s.after s.st (Parsed.ofPacket 2#8 msg).flags []) := by
  have hack : acceptParsed s (.ofPacket 2#8 msg) = acceptAck s (Parsed.ofPacket 2#8 msg).flags := rfl
  rw [hack, acceptAck, if_neg h]
  exact answer_eq_after_of_ok rfl

/-- 43_framer.md R177, 44_socket.md R205: a valid packet of no known type is dropped. -/
theorem acceptParsed_unknown_type (h1 : t ≠ 1#8) (h2 : t ≠ 2#8) (msg : Buffer) :
    acceptParsed s (.ofPacket t msg) = .next (s.after (s.st.countDrop.withError .unknownType)
      { (Parsed.ofPacket t msg).flags with status := .unknownType } []) := by
  have hnone : PacketType.ofByte (Parsed.ofPacket t msg).ptype = none := PacketType.ofByte_eq_none_iff.2 ⟨h1, h2⟩
  rw [acceptParsed, hnone]
  exact dropDatagram_eq (by decide)

end ReceiveOperation

/-- Settles O29: the digest check fails and is the only one that does. -/
theorem wrongDigestIsAnIntegrityMismatch : Obligations.WrongDigestIsAnIntegrityMismatch := by
  intro s t msg h hne hdata hfits
  have herr : Status.integrityMismatch ≠ .ok := by decide
  have hparsed := hdata ▸ parseRaw_of_wrong_digest hne s.st.cfgMode
  refine ⟨?_, fun hopen => ?_⟩
  · rw [exec_parse hfits hparsed, St.record_error _ herr]
    rfl
  · rw [exec_rx_of_parsed hopen hfits hparsed, acceptParsed_of_invalid rfl herr]
    rfl

/-- Settles O35: the drop reports the parse, and a bad length fails before anything is read. -/
theorem rxIsIgnoredInClosedAndDropsInvalidDatagrams : Obligations.RxIsIgnoredInClosedAndDropsInvalidDatagrams := by
  refine fun s => ⟨exec_rx_of_closed, fun hopen hfits r hr hv => ?_, fun hopen hfits hlen => ?_⟩
  · obtain ⟨hvalid, -⟩ | ⟨-, hstatus⟩ := parseRaw_status Config.digest s.op.data s.st.cfgMode
    · rw [← hr, hv] at hvalid
      cases hvalid
    · rw [← hr] at hstatus
      have hx : r.status ≠ .ok := by obtain h | h | h := hstatus <;> rw [h] <;> decide
      refine ⟨hstatus, ?_⟩
      rw [exec_rx_of_parsed hopen hfits hr.symm, acceptParsed_of_invalid hv hx, Parsed.flags, hv]
      rfl
  · rw [exec_rx_of_parsed hopen hfits (parseRaw_framing hlen), acceptParsed_of_invalid rfl (by decide)]
    rfl

/-- Settles O36: the packet parses back, and its type byte is that of a Data packet. -/
theorem rxDataDeliversThenAcknowledges : Obligations.RxDataDeliversThenAcknowledges := by
  intro s msg hopen hdata hfits
  have hparsed : parseRaw Config.digest s.op.data s.st.cfgMode = .ofPacket 1#8 msg := by
    rw [hdata, buildRaw_data, parseRaw_sealedPacket]
  rw [exec_rx_of_parsed hopen hfits hparsed, acceptParsed_data]
  rfl

/-- Settles O37: the packet parses back as an Acknowledgement, and the session decides what it ends. -/
theorem rxAcknowledgementEndsTheOutstandingSend : Obligations.RxAcknowledgementEndsTheOutstandingSend := by
  intro s msg hdata hfits
  have hparsed : parseRaw Config.digest s.op.data s.st.cfgMode = .ofPacket 2#8 [] := by
    rw [hdata, buildRaw_ack, parseRaw_sealedPacket]
  refine ⟨fun hawait => ?_, fun hidle => ?_⟩
  · rw [exec_rx_of_parsed (by rw [hawait]; decide) hfits hparsed, acceptParsed_ack_of_awaitingAck hawait]
    rfl
  · rw [exec_rx_of_parsed (by rw [hidle]; decide) hfits hparsed,
      acceptParsed_ack_of_not_awaitingAck (by rw [hidle]; decide)]
    rfl

/-- Settles O38: the parser does not look at the type byte, and RX finds no packet type in it. -/
theorem validPacketsOfUnknownTypeParseButAreDropped : Obligations.ValidPacketsOfUnknownTypeParseButAreDropped := by
  intro s t msg h1 h2 hdata hfits
  have hparsed : parseRaw Config.digest s.op.data s.st.cfgMode = .ofPacket t msg := by
    rw [hdata, parseRaw_sealedPacket]
  refine ⟨exec_parse_of_packet hfits hparsed, fun hopen => ?_⟩
  rw [exec_rx_of_parsed hopen hfits hparsed, acceptParsed_unknown_type h1 h2]
  rfl

/-- Settles O39: the damaged datagram still carries the packet, so RX does what it does for the packet unharmed. -/
theorem interleavedPacketSurvivesOneBadBytePerBlock : Obligations.InterleavedPacketSurvivesOneBadBytePerBlock := by
  intro s msg hopen hmode hbad hfits
  have hparsed : parseRaw Config.digest s.op.data s.st.cfgMode = .ofPacket 1#8 msg := by
    rw [hmode, parseRaw_of_carries_sealed (carries_of_oneBadByte hbad)]
    rfl
  rw [exec_rx_of_parsed hopen hfits hparsed, acceptParsed_data, hmode]
  rfl

/-- Settles O24: every operation that uses the buffer looks at its length first, and SEND at the state before that. -/
theorem oversizeBuffersAreRefusedOrDropped : Obligations.OversizeBuffersAreRefusedOrDropped := by
  intro s hlong
  have hover := State.oversize_eq_true_of_not_fits hlong
  have hraise (k : Buffer → Result) : withBuffer s k = .next (s.afterRaise .oversize) :=
    (withBuffer_of_oversize hover).trans (raise_eq (by decide))
  refine ⟨fun i hi => ?_, fun t => by rw [exec, execBuild, hraise], fun hidle => exec_send_of_not_fits hidle hlong,
    fun hopen => ?_⟩
  · simp only [List.mem_cons, List.not_mem_nil, or_false] at hi
    obtain rfl | rfl | rfl | rfl | rfl := hi
    · rw [exec, execEncode, hraise]
    · rw [exec, execDecode, hraise]
    · rw [exec, execInterleave, hraise]
    · rw [exec, execDeinterleave, hraise]
    · rw [exec, execParse, hraise]
  · rw [exec, execRx, if_neg hopen, if_pos hover, dropDatagram_eq (by decide)]
    rfl

end Sys2Proof.Machine

/-!
The session over steps and runs: what each operation does to it, said once, and the invariants of 10_state.md R44; the
closed block (70_reset_and_hazards.md R323); the statuses an operation reports (60_exceptions.md R271, R272).
-/

namespace Sys2Proof.Machine

open Sys2Proof

section SessionEffects

/-- The architectural state without `last_err` and the counters: what the session depends on (10_state.md R33 to
R40). -/
def St.session (st : St) : St :=
  { st with lastErr := .ok, cntTx := 0#32, cntRetx := 0#32, cntDeliver := 0#32, cntDrop := 0#32 }

/-- The elements of a session that belong to the outstanding packet (44_socket.md R211, R214). -/
theorem St.stored_of_session_eq {st st' : St} (h : st'.session = st.session) :
    st'.cfgMode = st.cfgMode ∧ st'.pending = st.pending ∧ st'.target = st.target ∧
      st'.timerActive = st.timerActive ∧ st'.sessInterval = st.sessInterval :=
  ⟨(congrArg St.cfgMode h :), (congrArg St.pending h :), (congrArg St.target h :), (congrArg St.timerActive h :),
    (congrArg St.sessInterval h :)⟩

/-- What an operation `i`, begun in `s`, can do to the session (44_socket.md, 45_registers.md R252, R253): keep it, or
one of seven changes, or stop where 10_state.md R44 says no run comes. -/
inductive SessionEffect (i : Instr) (s : State) : Result → Prop where
  | keeps (st : St) (r : Resp) (outs : List Event) (hst : st.session = s.st.session) :
    SessionEffect i s (complete s st r outs)
  | sends (hi : i = .send) (hidle : s.st.fsm = .idle) (raw : Buffer) :
    SessionEffect i s (complete s (s.st.countTx.arm raw s.op.addr) {} [.tx raw s.op.addr])
  | shuts (hi : i = .close ∨ i = .txerr) (r : Resp) (outs : List Event) :
    SessionEffect i s (complete s s.st.shut r outs)
  | acknowledged (hi : i = .rx) (hawait : s.st.fsm = .awaitingAck) (r : Resp) :
    SessionEffect i s (complete s { s.st.disarm with fsm := .idle } r [])
  | countsDown (hi : i = .tick) (hactive : s.st.timerActive = true) (h0 : s.st.timerCount ≠ 0#32)
      (h1 : s.st.timerCount ≠ 1#32) :
    SessionEffect i s (complete s { s.st with timerCount := s.st.timerCount - 1#32 } {} [])
  | retransmits (hi : i = .tick) (hactive : s.st.timerActive = true) (bytes : Buffer) (addr : Addr) :
    SessionEffect i s
      (complete s { s.st.countTx.countRetx with timerCount := s.st.sessInterval } {} [.tx bytes addr])
  | setsMode (hi : i = .wrreg 0) (hidle : s.st.fsm = .idle) (mode : Bool) :
    SessionEffect i s (complete s { s.st with cfgMode := mode } {} [])
  | setsTimeout (hi : i = .wrreg 1) (v : Word32) (hv : v ≠ 0#32) :
    SessionEffect i s (complete s { s.st with cfgTimeout := v } {} [])
  | stops (hi : i = .tick) (hactive : s.st.timerActive = true)
      (hbroken : s.st.timerCount = 0#32 ∨ s.st.pending = none ∨ s.st.target = none) (f : Fault) :
    SessionEffect i s (.fault f)

variable {i : Instr} {s : State}

theorem answer_sessionEffect (r : Resp) : SessionEffect i s (answer s r) := .keeps _ _ _ rfl

theorem raise_sessionEffect (x : Status) : SessionEffect i s (raise s x) := answer_sessionEffect _

theorem dropDatagram_sessionEffect (r : Resp) (x : Status) : SessionEffect i s (dropDatagram s r x) := .keeps _ _ _ rfl

/-- 20_memory.md R80. -/
theorem RepeatsItsAnswer.sessionEffect {f : State → Result} (h : RepeatsItsAnswer s f) : SessionEffect i s (f s) := by
  obtain ⟨r, hanswer, -⟩ := h
  rw [hanswer]
  exact answer_sessionEffect r

theorem execSend_sessionEffect : SessionEffect .send s (execSend s) := by
  unfold execSend
  split
  · exact raise_sessionEffect _
  · next hidle =>
    obtain ⟨-, e⟩ | ⟨-, e⟩ := withBuffer_cases s _ <;> rw [e]
    · exact raise_sessionEffect _
    · exact .sends rfl (not_not.1 hidle) _

theorem execWrreg_sessionEffect (reg : Nat) : SessionEffect (.wrreg reg) s (execWrreg reg s) := by
  unfold execWrreg
  split
  · exact raise_sessionEffect _
  · next hw =>
    obtain ⟨rfl, hidle, rfl⟩ | ⟨rfl, hv, rfl⟩ | ⟨rfl, rfl⟩ := writeRegister_ok_cases hw
    · exact .setsMode rfl hidle _
    · exact .setsTimeout rfl _ hv
    · exact .keeps _ _ _ rfl

theorem acceptParsed_sessionEffect (r : Parsed) : SessionEffect .rx s (acceptParsed s r) := by
  unfold acceptParsed acceptAck acceptData
  split
  · split
    · split
      · next hawait => exact .acknowledged rfl hawait _
      · exact answer_sessionEffect _
    · exact .keeps _ _ _ rfl
    · exact dropDatagram_sessionEffect _ _
  · exact dropDatagram_sessionEffect _ _

theorem execRx_sessionEffect : SessionEffect .rx s (execRx s) := by
  obtain ⟨-, e⟩ | ⟨-, -, e⟩ | ⟨-, -, e⟩ := execRx_cases s <;> rw [e]
  · exact answer_sessionEffect _
  · exact dropDatagram_sessionEffect _ _
  · exact acceptParsed_sessionEffect _

theorem retransmit_sessionEffect (hactive : s.st.timerActive = true) : SessionEffect .tick s (retransmit s) := by
  unfold retransmit
  split
  · exact .retransmits rfl hactive _ _
  · next hnone =>
    refine .stops rfl hactive (.inr ?_) _
    cases hp : s.st.pending with
    | none => exact .inl rfl
    | some bytes => exact .inr (Option.eq_none_iff_forall_ne_some.2 fun addr ht => hnone bytes addr hp ht)

theorem execTick_sessionEffect : SessionEffect .tick s (execTick s) := by
  obtain ⟨-, e⟩ | ⟨-, hactive, h0, e⟩ | ⟨-, hactive, -, e⟩ | ⟨-, hactive, h0, h1, e⟩ := execTick_cases s <;> rw [e]
  · exact answer_sessionEffect _
  · exact .stops rfl hactive (.inl h0) _
  · exact retransmit_sessionEffect hactive
  · exact .countsDown rfl hactive h0 h1

/-- Every operation of 30_encoding.md R93 has one of the listed effects. -/
theorem exec_sessionEffect (i : Instr) (s : State) : SessionEffect i s (exec i s) := by
  cases i with
  | parity | encw | chk | decw | encode | decode | interleave | deinterleave | parse =>
    exact (exec_answersFromOperands (by decide)).repeatsItsAnswer.sessionEffect
  | build ptype => exact (execBuild_answersFromOperands ptype).repeatsItsAnswer.sessionEffect
  | rdreg reg => exact (execRdreg_repeatsItsAnswer reg).sessionEffect
  | wrreg reg => exact execWrreg_sessionEffect reg
  | send => exact execSend_sessionEffect
  | rx => exact execRx_sessionEffect
  | tick => exact execTick_sessionEffect
  | close =>
    simp only [exec, execClose]
    split
    · exact answer_sessionEffect _
    · exact .shuts (.inl rfl) _ _
  | bind =>
    simp only [exec, execBind]
    split
    · exact raise_sessionEffect _
    · exact .keeps _ _ _ rfl
  | txerr =>
    simp only [exec, execTxerr]
    split
    · exact answer_sessionEffect _
    · exact .shuts (.inr rfl) _ _
  | listening =>
    simp only [exec, execListening]
    split
    · exact answer_sessionEffect _
    · exact .keeps _ _ _ rfl

end SessionEffects

section Legal

variable {st st' : St}

/-- 10_state.md R44 speaks of the session alone. -/
theorem St.Legal.of_session_eq (h : st.Legal) (hst : st'.session = st.session) : st'.Legal :=
  show st'.session.Legal from hst ▸ (show st.session.Legal from h)

theorem St.Legal.one_le_cfgTimeout (h : st.Legal) : 1#32 ≤ st.cfgTimeout := by
  obtain ⟨-, -, -, -, -, htimeout⟩ := h
  exact htimeout

/-- 10_state.md R44, point 4. -/
theorem St.Legal.timer_bounds (h : st.Legal) (hactive : st.timerActive = true) :
    1#32 ≤ st.timerCount ∧ st.timerCount ≤ st.sessInterval ∧ 1#32 ≤ st.sessInterval := by
  obtain ⟨-, -, -, hcount, -, -⟩ := h
  exact hcount hactive

theorem one_le_iff_ne_zero {v : Word32} : 1#32 ≤ v ↔ v ≠ 0#32 := by
  rw [BitVec.le_def, ne_eq, ← BitVec.toNat_inj, BitVec.toNat_ofNat, BitVec.toNat_ofNat]
  omega

theorem St.reset_legal : St.reset.Legal := by decide

/-- A state with nothing outstanding is legal when its `cfg_timeout` is. -/
theorem St.legal_of_disarmed (hfsm : st.fsm ≠ .awaitingAck) (hpending : st.pending = none) (htarget : st.target = none)
    (hactive : st.timerActive = false) (hcount : st.timerCount = 0#32) (htimeout : 1#32 ≤ st.cfgTimeout) :
    st.Legal := by
  refine ⟨?_, ?_, ?_, ?_, fun _ => hcount, htimeout⟩ <;> simp [hfsm, hpending, htarget, hactive]

/-- 44_socket.md R202: the interval `SEND` latches is at least 1. -/
theorem St.Legal.arm (h : st.Legal) (raw : Buffer) (addr : Addr) : (st.arm raw addr).Legal := by
  have htimeout := h.one_le_cfgTimeout
  exact ⟨by simp, by simp, by simp, fun _ => ⟨htimeout, BitVec.le_refl _, htimeout⟩, nofun, htimeout⟩

/-- 44_socket.md R208: a count from 1 to the interval keeps an armed timer legal. -/
theorem St.Legal.setTimerCount (h : st.Legal) (hactive : st.timerActive = true) {v : Word32} (hv : 1#32 ≤ v)
    (hle : v ≤ st.sessInterval) : ({ st with timerCount := v } : St).Legal := by
  obtain ⟨-, -, hinterval⟩ := h.timer_bounds hactive
  obtain ⟨hpending, htarget, htimer, -, -, htimeout⟩ := h
  exact ⟨hpending, htarget, htimer, fun _ => ⟨hv, hle, hinterval⟩, fun hoff => absurd (hactive.symm.trans hoff) nofun,
    htimeout⟩

/-- 44_socket.md R208: a count of 2 or more counts down within its bounds. -/
theorem St.Legal.countDown (h : st.Legal) (hactive : st.timerActive = true) (h0 : st.timerCount ≠ 0#32)
    (h1 : st.timerCount ≠ 1#32) : ({ st with timerCount := st.timerCount - 1#32 } : St).Legal := by
  obtain ⟨-, hle, -⟩ := h.timer_bounds hactive
  exact h.setTimerCount hactive (by bv_omega) (by bv_omega)

/-- 10_state.md R44: an operation begun in a legal state answers a legal state. -/
theorem exec_legal (i : Instr) {s : State} (h : s.Legal) : ∃ t, exec i s = .next t ∧ t.Legal := by
  have htimeout : 1#32 ≤ s.st.cfgTimeout := St.Legal.one_le_cfgTimeout h
  have hcompletes {st : St} (r : Resp) (outs : List Event) (hst : st.Legal) :
      ∃ t, complete s st r outs = .next t ∧ t.Legal := ⟨_, rfl, hst⟩
  have heffect := exec_sessionEffect i s
  generalize exec i s = o at heffect
  cases heffect with
  | keeps st r outs hst => exact hcompletes r outs (St.Legal.of_session_eq h hst)
  | sends hi hidle raw => exact hcompletes _ _ (St.Legal.arm (st := s.st.countTx) h raw _)
  | shuts hi r outs => exact hcompletes r outs (St.legal_of_disarmed nofun rfl rfl rfl rfl htimeout)
  | acknowledged hi hawait r => exact hcompletes r [] (St.legal_of_disarmed nofun rfl rfl rfl rfl htimeout)
  | countsDown hi hactive h0 h1 => exact hcompletes _ _ (St.Legal.countDown h hactive h0 h1)
  | retransmits hi hactive bytes addr =>
    obtain ⟨-, -, hinterval⟩ := St.Legal.timer_bounds h hactive
    exact hcompletes _ _ (St.Legal.setTimerCount (st := s.st.countTx.countRetx) h hactive hinterval (BitVec.le_refl _))
  | setsMode hi hidle mode => exact hcompletes _ _ h
  | setsTimeout hi v hv =>
    obtain ⟨hpending, htarget, htimer, hcount, hoff, -⟩ := h
    exact hcompletes _ _ ⟨hpending, htarget, htimer, hcount, hoff, one_le_iff_ne_zero.2 hv⟩
  | stops hi hactive hbroken f =>
    obtain ⟨hpending, htarget, htimer, hcount, -, -⟩ := h
    have hawait := htimer.2 hactive
    obtain h0 | hnone | hnone := hbroken
    · exact absurd h0 (one_le_iff_ne_zero.1 (hcount hactive).1)
    · exact absurd hnone (hpending.1 hawait)
    · exact absurd hnone (htarget.1 hawait)

/-- 10_state.md R44, for one step, whatever is presented. -/
theorem step_legal {s : State} (h : s.Legal) : ∃ t, step s = .next t ∧ t.Legal := by
  obtain ⟨-, e⟩ | ⟨rest, -, e⟩ | ⟨_, op, rest, -, -, e⟩ | ⟨_, op, rest, i, -, -, e⟩ := step_cases s
  · exact ⟨_, e, h⟩
  · exact ⟨_, e, St.reset_legal⟩
  · exact ⟨_, e, h⟩
  · rw [e]
    exact exec_legal i (s := s.accept op rest) h

end Legal

section Runs

variable {s t : State} {n : Nat}

theorem run_zero (s : State) : run 0 s = .next s := rfl

/-- Go on from the next state; a stop stays what it is. -/
def andThen (o : Result) (k : State → Result) : Result :=
  match o with
  | .next s => k s
  | .fault r => .fault r
  | .refused r => .refused r

@[simp] theorem andThen_next (s : State) (k : State → Result) : andThen (.next s) k = k s := rfl

/-- A run of `n + 1` steps is a step and a run of `n` steps from where it leads. -/
theorem run_succ_eq (n : Nat) (s : State) : run (n + 1) s = andThen (step s) (run n) := by
  have hstep : Sys2Proof.core.step s = step s := rfl
  simp only [run, Host.Core.run, hstep]
  cases step s <;> rfl

theorem run_succ (h : step s = .next t) : run (n + 1) s = run n t := by
  rw [run_succ_eq, h, andThen_next]

end Runs

/-- Settles O44: nothing is outstanding after reset. -/
theorem resetStateIsLegal : Obligations.ResetStateIsLegal := St.reset_legal

/-- Settles O45: each effect on the session keeps the six invariants. -/
theorem everyStepKeepsTheSessionInvariants : Obligations.EveryStepKeepsTheSessionInvariants := by
  intro s t hs hstep
  obtain ⟨t', ht', hlegal⟩ := step_legal hs
  obtain rfl := Host.Outcome.next.inj (hstep.symm.trans ht')
  exact hlegal

/-- Settles O46: a step from a legal state answers a legal state, by induction on the number of steps. -/
theorem legalRunsNeverStop : Obligations.LegalRunsNeverStop := by
  intro n
  induction n with
  | zero => exact fun s hs => ⟨s, run_zero s, hs⟩
  | succ n ih =>
    intro s hs
    obtain ⟨t, hstep, ht⟩ := step_legal hs
    rw [run_succ hstep]
    exact ih t ht

/-- Settles O53: of the effects on the session, four write the stored packet and its address. -/
theorem pendingAndTargetAreWrittenTogetherByFourOperations :
    Obligations.PendingAndTargetAreWrittenTogetherByFourOperations := by
  intro i s t ht
  have heffect := exec_sessionEffect i s
  generalize exec i s = o at ht heffect
  cases heffect with
  | keeps st r outs hst =>
    obtain rfl := complete_next_iff.1 ht
    obtain ⟨-, hpending, htarget, -⟩ := St.stored_of_session_eq hst
    exact .inl ⟨hpending, htarget⟩
  | sends hi hidle raw =>
    obtain rfl := complete_next_iff.1 ht
    exact .inr (.inl ⟨hi, raw, s.op.addr, rfl, rfl, rfl⟩)
  | shuts hi r outs =>
    obtain rfl := complete_next_iff.1 ht
    exact .inr (.inr ⟨hi.imp_right .inl, rfl, rfl⟩)
  | acknowledged hi hawait r =>
    obtain rfl := complete_next_iff.1 ht
    exact .inr (.inr ⟨.inr (.inr ⟨hi, hawait⟩), rfl, rfl⟩)
  | countsDown | retransmits | setsMode | setsTimeout =>
    obtain rfl := complete_next_iff.1 ht
    exact .inl ⟨rfl, rfl⟩
  | stops => cases ht

/-- Settles O54: the effects that change one of the five elements begin in `Idle` or end outside `AwaitingAck`. -/
theorem onePacketOneModeWhileAwaitingAck : Obligations.OnePacketOneModeWhileAwaitingAck := by
  intro s t hs hstep ht
  obtain ⟨-, e⟩ | ⟨rest, -, e⟩ | ⟨_, op, rest, -, -, e⟩ | ⟨_, op, rest, i, -, -, e⟩ := step_cases s <;>
    rw [e] at hstep
  · cases hstep
    exact ⟨rfl, rfl, rfl, rfl, rfl⟩
  · cases hstep
    cases ht
  · cases hstep
    exact ⟨rfl, rfl, rfl, rfl, rfl⟩
  have hs' : (s.accept op rest).st.fsm ≠ .idle := by
    rw [State.accept_st, hs]
    decide
  have heffect := exec_sessionEffect i (s.accept op rest)
  generalize exec i (s.accept op rest) = o at hstep heffect
  cases heffect with
  | keeps st r outs hst =>
    obtain rfl := complete_next_iff.1 hstep
    exact St.stored_of_session_eq hst
  | sends hi hidle raw => exact absurd hidle hs'
  | setsMode hi hidle mode => exact absurd hidle hs'
  | shuts | acknowledged =>
    obtain rfl := complete_next_iff.1 hstep
    cases ht
  | countsDown | retransmits | setsTimeout =>
    obtain rfl := complete_next_iff.1 hstep
    exact ⟨rfl, rfl, rfl, rfl, rfl⟩
  | stops => cases hstep

/-- Settles O47: every operation, and a raise, ends in one `commit` of the state that has accepted it. -/
theorem oneResponseAndOrderedEventsPerOperation : Obligations.OneResponseAndOrderedEventsPerOperation := by
  intro s t port op rest hin hstep
  have hcommit : ∃ st r outs, t = (s.accept op rest).commit st r outs := by
    cases hd : decode op.w with
    | none =>
      rw [step_eq_afterRaise_of_illegal hin hd, ← raise_eq (by decide)] at hstep
      exact raise_commits _ t hstep
    | some i =>
      rw [step_eq_exec hin hd] at hstep
      exact exec_commits i _ t hstep
  obtain ⟨st, r, outs, rfl⟩ := hcommit
  exact ⟨rfl, rfl, nofun, rfl, rfl⟩

section Closed

variable {s t : State} {i : Instr}

/-- Two architectural states differ in `cfg_timeout` and `last_err` at most, all that a closed block can change
(70_reset_and_hazards.md R323). -/
def St.SameButTimeoutAndError (st st' : St) : Prop := ∃ v x, st' = { st with cfgTimeout := v, lastErr := x }

theorem St.sameButTimeoutAndError_refl (st : St) : st.SameButTimeoutAndError st := ⟨st.cfgTimeout, st.lastErr, rfl⟩

theorem St.SameButTimeoutAndError.trans {st st' st'' : St} (h : st.SameButTimeoutAndError st')
    (h' : st'.SameButTimeoutAndError st'') : st.SameButTimeoutAndError st'' := by
  obtain ⟨v, x, rfl⟩ := h
  obtain ⟨v', x', rfl⟩ := h'
  exact ⟨v', x', rfl⟩

/-- An outcome with no event and nothing changed but `cfg_timeout` and `last_err`. -/
def AnswersSilently (s : State) (o : Result) : Prop :=
  ∃ st r, o = .next (s.after st r []) ∧ s.st.SameButTimeoutAndError st

theorem answer_answersSilently (r : Resp) : AnswersSilently s (answer s r) :=
  ⟨s.st.record r.status, r, rfl, s.st.cfgTimeout, _, rfl⟩

theorem raise_answersSilently (x : Status) : AnswersSilently s (raise s x) := answer_answersSilently _

theorem RepeatsItsAnswer.answersSilently {f : State → Result} (h : RepeatsItsAnswer s f) : AnswersSilently s (f s) := by
  obtain ⟨r, hanswer, -⟩ := h
  rw [hanswer]
  exact answer_answersSilently r

/-- 45_registers.md R252 to R254: in `Closed` a register write reaches `cfg_timeout` and `last_err` alone. -/
theorem execWrreg_answersSilently (h : s.st.fsm = .closed) (reg : Nat) : AnswersSilently s (execWrreg reg s) := by
  unfold execWrreg
  split
  · exact raise_answersSilently _
  · next hw =>
    obtain ⟨-, hidle, -⟩ | ⟨-, -, rfl⟩ | ⟨-, rfl⟩ := writeRegister_ok_cases hw
    · rw [h] at hidle
      cases hidle
    · exact ⟨_, _, complete_eq_after_of_ok rfl, _, s.st.lastErr, rfl⟩
    · exact ⟨_, _, complete_eq_after_of_ok rfl, s.st.cfgTimeout, _, rfl⟩

/-- 70_reset_and_hazards.md R323: every operation in `Closed`. -/
theorem exec_answersSilently (h : s.st.fsm = .closed) (i : Instr) : AnswersSilently s (exec i s) := by
  have hkept {r : Resp} (e : exec i s = .next (s.after s.st r [])) : AnswersSilently s (exec i s) :=
    ⟨_, _, e, s.st.sameButTimeoutAndError_refl⟩
  have hraised {x : Status} (e : exec i s = .next (s.afterRaise x)) : AnswersSilently s (exec i s) :=
    ⟨_, _, e, s.st.cfgTimeout, x, rfl⟩
  cases i with
  | parity | encw | chk | decw | encode | decode | interleave | deinterleave | parse =>
    exact (exec_answersFromOperands (by decide)).repeatsItsAnswer.answersSilently
  | build ptype => exact (execBuild_answersFromOperands ptype).repeatsItsAnswer.answersSilently
  | rdreg reg => exact (execRdreg_repeatsItsAnswer reg).answersSilently
  | wrreg reg => exact execWrreg_answersSilently h reg
  | send => exact hraised (exec_send_of_not_idle (by rw [h]; decide))
  | bind => exact hraised (exec_bind_of_closed h)
  | close | txerr | listening => exact hkept (exec_eq_after_of_closed (by decide) h)
  | rx => exact hkept (exec_rx_of_closed h)
  | tick =>
    have hquiet : exec .tick s = answer s {} := by rw [exec, execTick, if_pos h]
    rw [hquiet]
    exact answer_answersSilently _

/-- 70_reset_and_hazards.md R323, for one step with no reset presented. -/
theorem step_of_closed (h : s.st.fsm = .closed) (hno : s.noResetAhead) :
    ∃ t, step s = .next t ∧ s.st.SameButTimeoutAndError t.st ∧ t.wire = s.wire ∧ t.noResetAhead := by
  have haccepted {port : Port} {op : Op} {rest : List Input} {o : Result} (hin : s.inputs = .op port op :: rest)
      (ho : AnswersSilently (s.accept op rest) o) :
      ∃ t, o = .next t ∧ s.st.SameButTimeoutAndError t.st ∧ t.wire = s.wire ∧ t.noResetAhead := by
    obtain ⟨st, r, rfl, hst⟩ := ho
    refine ⟨_, rfl, hst, List.append_nil _, fun x hx => hno x ?_⟩
    rw [hin]
    exact List.mem_cons_of_mem _ hx
  obtain ⟨-, e⟩ | ⟨rest, hin, -⟩ | ⟨port, op, rest, hin, -, e⟩ | ⟨port, op, rest, i, hin, -, e⟩ := step_cases s
  · exact ⟨s, e, s.st.sameButTimeoutAndError_refl, rfl, hno⟩
  · exact absurd rfl (hno .reset (hin ▸ List.mem_cons_self))
  · rw [e, ← raise_eq (by decide)]
    exact haccepted hin (raise_answersSilently _)
  · rw [e]
    exact haccepted hin (exec_answersSilently (s := s.accept op rest) h i)

/-- 70_reset_and_hazards.md R323, for a run of any length. -/
theorem run_of_closed (n : Nat) (h : s.st.fsm = .closed) (hno : s.noResetAhead) :
    ∃ t, run n s = .next t ∧ s.st.SameButTimeoutAndError t.st ∧ t.wire = s.wire := by
  induction n generalizing s with
  | zero => exact ⟨s, run_zero s, s.st.sameButTimeoutAndError_refl, rfl⟩
  | succ n ih =>
    obtain ⟨u, hstep, hsame, hwire, hno'⟩ := step_of_closed h hno
    have hclosed : u.st.fsm = .closed := by
      obtain ⟨v, x, hst⟩ := hsame
      rw [hst, ← h]
    obtain ⟨t, hrun, hsame', hwire'⟩ := ih hclosed hno'
    exact ⟨t, (run_succ hstep).trans hrun, hsame.trans hsame', hwire'.trans hwire⟩

end Closed

/-- Settles O55: a run changes at most `cfg_timeout` and `last_err`, and the statement names neither. -/
theorem closedIsTerminalAndSilent : Obligations.ClosedIsTerminalAndSilent := by
  intro n s hs hno
  obtain ⟨t, hrun, ⟨v, x, hst⟩, hwire⟩ := run_of_closed n hs hno
  refine ⟨t, hrun, ?_⟩
  rw [hst]
  exact ⟨hs, hwire, rfl, rfl, rfl, rfl, rfl, rfl, rfl, rfl⟩

section Statuses

/-- The errors an operation reports together with a result or an effect (60_exceptions.md R272, the exceptions). -/
def reportedStatuses : Instr → List Status
  | .chk | .decw | .decode => [.codecUncorrectable]
  | .parse => [.codecUncorrectable, .integrityMismatch]
  | .rx => [.framingError, .codecUncorrectable, .integrityMismatch, .unknownType, .oversize]
  | .txerr => [.transportError]
  | .parity | .encw | .encode | .interleave | .deinterleave | .build _ | .send | .close | .bind => []
  | .rdreg _ | .wrreg _ | .tick | .listening => []

/-- The errors an operation raises (60_exceptions.md R272, the default). -/
def raisedStatuses : Instr → List Status
  | .parity | .encw | .chk | .decw | .rdreg _ => [.invalidArgument]
  | .encode => [.oversize]
  | .decode | .interleave | .deinterleave | .parse => [.framingError, .oversize]
  | .build _ => [.protocolError, .oversize]
  | .send => [.invalidState, .oversize]
  | .bind => [.invalidState]
  | .wrreg _ => [.invalidState, .invalidArgument]
  | .close | .rx | .tick | .txerr | .listening => []

/-- The status of an outcome is `OK`, or one the operation reports, or one it raises, precisely (60_exceptions.md R271,
R272). -/
def ReportsOrRaises (i : Instr) (s : State) (o : Result) : Prop :=
  ∀ t r, o = .next t → t.resp = some r →
    r.status = .ok ∨ r.status ∈ reportedStatuses i ∨ (r.status ∈ raisedStatuses i ∧ t = s.afterRaise r.status)

variable {i : Instr} {s : State}

theorem complete_reportsOrRaises {st : St} {r : Resp} {outs : List Event}
    (h : r.status = .ok ∨ r.status ∈ reportedStatuses i) : ReportsOrRaises i s (complete s st r outs) := by
  intro t r' ht hr
  obtain rfl := complete_next_iff.1 ht
  obtain rfl := Option.some.inj hr
  exact h.imp_right .inl

theorem answer_reportsOrRaises {r : Resp} (h : r.status = .ok ∨ r.status ∈ reportedStatuses i) :
    ReportsOrRaises i s (answer s r) := complete_reportsOrRaises h

theorem raise_reportsOrRaises {x : Status} (hx : x ∈ raisedStatuses i) (hne : x ≠ .ok) :
    ReportsOrRaises i s (raise s x) := by
  intro t r ht hr
  rw [raise_eq hne] at ht
  cases ht
  cases hr
  exact .inr (.inr ⟨hx, rfl⟩)

theorem withWord_reportsOrRaises {k : Word16 → Result} (hx : .invalidArgument ∈ raisedStatuses i)
    (h : ∀ w, ReportsOrRaises i s (k w)) : ReportsOrRaises i s (withWord s k) := by
  obtain e | ⟨w, -, e⟩ := withWord_cases s k <;> rw [e]
  · exact raise_reportsOrRaises hx (by decide)
  · exact h w

theorem withData11_reportsOrRaises {k : Data11 → Result} (hx : .invalidArgument ∈ raisedStatuses i)
    (h : ∀ d, ReportsOrRaises i s (k d)) : ReportsOrRaises i s (withData11 s k) := by
  obtain e | ⟨d, -, e⟩ := withData11_cases s k <;> rw [e]
  · exact raise_reportsOrRaises hx (by decide)
  · exact h d

theorem withBuffer_reportsOrRaises {k : Buffer → Result} (hx : .oversize ∈ raisedStatuses i)
    (h : ∀ b, ReportsOrRaises i s (k b)) : ReportsOrRaises i s (withBuffer s k) := by
  obtain ⟨-, e⟩ | ⟨-, e⟩ := withBuffer_cases s k <;> rw [e]
  · exact raise_reportsOrRaises hx (by decide)
  · exact h _

theorem answerBlocks_reportsOrRaises (hx : .framingError ∈ raisedStatuses i) (out : Option Buffer) :
    ReportsOrRaises i s (answerBlocks s out) := by
  cases out with
  | none => exact raise_reportsOrRaises hx (by decide)
  | some b => exact answer_reportsOrRaises (.inl rfl)

theorem wordStatus_cases (unrec : Bool) : wordStatus unrec = .ok ∨ wordStatus unrec ∈ [Status.codecUncorrectable] := by
  cases unrec <;> decide

theorem decodeStatus_cases (valid : Bool) :
    decodeStatus valid = .ok ∨ decodeStatus valid ∈ [Status.codecUncorrectable] := by
  cases valid <;> decide

theorem parseStatus_cases (hv dm : Bool) :
    parseStatus hv dm = .ok ∨ parseStatus hv dm ∈ [Status.codecUncorrectable, .integrityMismatch] := by
  cases hv <;> cases dm <;> decide

/-- 41_hamming.md R116: a framing error of `Decode` comes with nothing else, and is a raise. -/
theorem execDecode_reportsOrRaises : ReportsOrRaises .decode s (execDecode s) := by
  refine withBuffer_reportsOrRaises (by decide) fun b => ?_
  by_cases hlen : b.length % 16 = 0
  · rw [decodeBuffer_aligned hlen]
    exact answer_reportsOrRaises (decodeStatus_cases _)
  · rw [decodeBuffer_misaligned hlen]
    exact raise_reportsOrRaises (x := .framingError) (by decide) (by decide)

/-- 43_framer.md R174, R176: a parse fails before any field is read, or its status follows the two checks. -/
theorem parseRaw_failure_or_status (digest : Buffer → Vector Byte 16) (raw : Buffer) (mode : Bool) :
    parseRaw digest raw mode = .framingFailure ∨
      ∃ hv dm, (parseRaw digest raw mode).status = parseStatus hv dm := by
  unfold parseRaw
  split
  · exact .inl rfl
  split
  · exact .inl rfl
  dsimp only
  split
  · exact .inl rfl
  · exact .inr ⟨_, _, rfl⟩

/-- 43_framer.md R176: a framing failure of `PARSE` comes with nothing else, and is a raise. -/
theorem execParse_reportsOrRaises : ReportsOrRaises .parse s (execParse s) := by
  refine withBuffer_reportsOrRaises (by decide) fun b => ?_
  obtain hfail | ⟨hv, dm, hstatus⟩ := parseRaw_failure_or_status Config.digest b s.st.cfgMode
  · rw [hfail]
    exact raise_reportsOrRaises (x := .framingError) (by decide) (by decide)
  · exact answer_reportsOrRaises (hstatus ▸ parseStatus_cases hv dm)

theorem execWrreg_reportsOrRaises (reg : Nat) : ReportsOrRaises (.wrreg reg) s (execWrreg reg s) := by
  unfold execWrreg
  split
  · next hw =>
    obtain rfl | rfl := writeRegister_error_cases hw
    · exact raise_reportsOrRaises (by simp [raisedStatuses]) (by decide)
    · exact raise_reportsOrRaises (by simp [raisedStatuses]) (by decide)
  · exact complete_reportsOrRaises (.inl rfl)

theorem retransmit_reportsOrRaises : ReportsOrRaises .tick s (retransmit s) := by
  intro t r ht hr
  obtain ⟨_, _, -, -, rfl⟩ := retransmit_next_iff.1 ht
  cases hr
  exact .inl rfl

theorem execTick_reportsOrRaises : ReportsOrRaises .tick s (execTick s) := by
  obtain ⟨-, e⟩ | ⟨-, -, -, e⟩ | ⟨-, -, -, e⟩ | ⟨-, -, -, -, e⟩ := execTick_cases s <;> rw [e]
  · exact complete_reportsOrRaises (.inl rfl)
  · exact fun _ _ h => nomatch h
  · exact retransmit_reportsOrRaises
  · exact complete_reportsOrRaises (.inl rfl)

theorem dropDatagram_reportsOrRaises {r : Resp} {x : Status} (hx : x = .ok ∨ x ∈ reportedStatuses i) :
    ReportsOrRaises i s (dropDatagram s r x) := complete_reportsOrRaises hx

/-- 44_socket.md R205, for a parse whose status is `OK` or one of its three errors. -/
theorem acceptParsed_reportsOrRaises {r : Parsed} (hr : r.status = .ok ∨ r.status ∈ reportedStatuses .rx) :
    ReportsOrRaises .rx s (acceptParsed s r) := by
  have hflags : r.flags.status = .ok := rfl
  unfold acceptParsed acceptAck acceptData
  split
  · split
    · split
      · exact complete_reportsOrRaises (.inl hflags)
      · exact answer_reportsOrRaises (.inl hflags)
    · exact complete_reportsOrRaises (.inl hflags)
    · exact dropDatagram_reportsOrRaises (.inr (by decide))
  · exact dropDatagram_reportsOrRaises hr

theorem execRx_reportsOrRaises : ReportsOrRaises .rx s (execRx s) := by
  obtain ⟨-, e⟩ | ⟨-, -, e⟩ | ⟨-, -, e⟩ := execRx_cases s <;> rw [e]
  · exact complete_reportsOrRaises (.inl rfl)
  · exact dropDatagram_reportsOrRaises (.inr (by decide))
  · refine acceptParsed_reportsOrRaises ?_
    obtain ⟨-, h⟩ | ⟨-, h | h | h⟩ := parseRaw_status Config.digest s.op.data s.st.cfgMode <;> rw [h] <;> decide

/-- Every operation of 30_encoding.md R93 reports or raises the statuses listed for it. -/
theorem exec_reportsOrRaises (i : Instr) (s : State) : ReportsOrRaises i s (exec i s) := by
  cases i with
  | parity => exact withWord_reportsOrRaises (by decide) fun _ => answer_reportsOrRaises (.inl rfl)
  | encw => exact withData11_reportsOrRaises (by decide) fun _ => answer_reportsOrRaises (.inl rfl)
  | chk | decw => exact withWord_reportsOrRaises (by decide) fun _ => answer_reportsOrRaises (wordStatus_cases _)
  | encode => exact withBuffer_reportsOrRaises (by decide) fun _ => answer_reportsOrRaises (.inl rfl)
  | decode => exact execDecode_reportsOrRaises
  | interleave | deinterleave =>
    exact withBuffer_reportsOrRaises (by decide) fun _ => answerBlocks_reportsOrRaises (by decide) _
  | build ptype =>
    simp only [exec, execBuild]
    refine withBuffer_reportsOrRaises (by simp [raisedStatuses]) fun b => ?_
    cases PacketType.ofByte ptype with
    | none => exact raise_reportsOrRaises (by simp [raisedStatuses]) (by decide)
    | some t => exact answer_reportsOrRaises (.inl rfl)
  | parse => exact execParse_reportsOrRaises
  | send =>
    simp only [exec, execSend]
    split
    · exact raise_reportsOrRaises (by decide) (by decide)
    · exact withBuffer_reportsOrRaises (by decide) fun _ => complete_reportsOrRaises (.inl rfl)
  | close =>
    simp only [exec, execClose]
    split
    · exact answer_reportsOrRaises (.inl rfl)
    · exact complete_reportsOrRaises (.inl rfl)
  | bind =>
    simp only [exec, execBind]
    split
    · exact raise_reportsOrRaises (by decide) (by decide)
    · exact complete_reportsOrRaises (.inl rfl)
  | rdreg reg =>
    simp only [exec, execRdreg]
    split
    · exact raise_reportsOrRaises (by simp [raisedStatuses]) (by decide)
    · exact answer_reportsOrRaises (.inl rfl)
  | wrreg reg => exact execWrreg_reportsOrRaises reg
  | rx => exact execRx_reportsOrRaises
  | tick => exact execTick_reportsOrRaises
  | txerr =>
    simp only [exec, execTxerr]
    split
    · exact answer_reportsOrRaises (.inl rfl)
    · exact complete_reportsOrRaises (.inr (by decide))
  | listening =>
    simp only [exec, execListening]
    split
    · exact answer_reportsOrRaises (.inl rfl)
    · exact complete_reportsOrRaises (.inl rfl)

/-- 60_exceptions.md R272: the operations that report an error with a result, and which errors. -/
theorem reportedStatuses_exceptions {x : Status} (h : x ∈ reportedStatuses i) :
    (i ∈ [Instr.chk, .decw, .decode, .parse] ∧ x = .codecUncorrectable) ∨
      (i = .parse ∧ x = .integrityMismatch) ∨ i = .rx ∨ i = .txerr := by
  cases i <;> simp_all [reportedStatuses]

end Statuses

/-- Settles O49: an error that is not one of the reported ones was raised. -/
theorem errorsArePrecise : Obligations.ErrorsArePrecise := by
  intro i s t r ht hr herr hword hparse hrx htxerr
  obtain hok | hreported | ⟨-, hraised⟩ := exec_reportsOrRaises i s t r ht hr
  · exact absurd hok herr
  · obtain h | h | h | h := reportedStatuses_exceptions hreported
    · exact absurd h hword
    · exact absurd h hparse
    · exact absurd h hrx
    · exact absurd h htxerr
  · exact hraised

/-- Settles O50: the table lists the statuses an operation reports and those it raises. -/
theorem operationsReportOnlyTheirStatuses : Obligations.OperationsReportOnlyTheirStatuses := by
  intro i s t r ht hr herr
  have hlisted : r.status ∈ reportedStatuses i ∨ r.status ∈ raisedStatuses i := by
    obtain hok | hreported | ⟨hraised, -⟩ := exec_reportsOrRaises i s t r ht hr
    · exact absurd hok herr
    · exact .inl hreported
    · exact .inr hraised
  cases i with
  | decode | parse | chk | decw =>
    simp only [reportedStatuses, raisedStatuses, List.mem_cons, List.not_mem_nil, or_false] at hlisted ⊢
    tauto
  | close | tick | listening => simp [reportedStatuses, raisedStatuses] at hlisted
  | _ => simpa [reportedStatuses, raisedStatuses] using hlisted

end Sys2Proof.Machine

/-!
Ports and addresses: moving what is presented to other ports and renaming every address commutes with every operation,
step and run (30_encoding.md R98, 00_scope.md R8).
-/

namespace Sys2Proof.Machine

open Sys2Proof

section Relabelling

/-- The architectural state with its one address renamed. -/
def St.renamed (f : Addr → Addr) (st : St) : St := { st with target := st.target.map f }

/-- One item with its port moved and its address renamed. -/
def Input.relabelled (p : Port → Port) (f : Addr → Addr) (x : Input) : Input := Input.renamed f (Input.onPort p x)

/-- The machine with every item presented on another port and every address renamed. -/
def State.relabelled (p : Port → Port) (f : Addr → Addr) (s : State) : State :=
  { s.renamed f with inputs := s.inputs.map (Input.relabelled p f) }

variable {p : Port → Port} {f : Addr → Addr} {s : State}

@[simp] theorem State.relabelled_st : (s.relabelled p f).st = s.st.renamed f := rfl

@[simp] theorem State.relabelled_inputs : (s.relabelled p f).inputs = s.inputs.map (Input.relabelled p f) := rfl

/-- Every operation ends in one `complete`, which carries addresses and what is presented along. -/
theorem complete_relabelled (st : St) (r : Resp) (outs : List Event) :
    complete (s.relabelled p f) (st.renamed f) r (outs.map (Event.renamed f)) =
      mapNext (State.relabelled p f) (complete s st r outs) := by
  have hwire : (s.wire ++ outs).map (Event.renamed f) = s.wire.map (Event.renamed f) ++ outs.map (Event.renamed f) :=
    List.map_append
  simp only [complete, mapNext, State.commit, State.relabelled, State.renamed, hwire]
  rfl

theorem answer_relabelled (r : Resp) :
    answer (s.relabelled p f) r = mapNext (State.relabelled p f) (answer s r) := complete_relabelled _ r []

theorem raise_relabelled (x : Status) :
    raise (s.relabelled p f) x = mapNext (State.relabelled p f) (raise s x) := answer_relabelled _

theorem dropDatagram_relabelled (r : Resp) (x : Status) :
    dropDatagram (s.relabelled p f) r x = mapNext (State.relabelled p f) (dropDatagram s r x) :=
  complete_relabelled s.st.countDrop { r with status := x } []

/-- A choice that reads no address and no port is the same on the relabelled machine. -/
theorem ite_relabelled {c c' : Prop} [Decidable c] [Decidable c'] (hc : c' ↔ c) {o₁ o₂ o₁' o₂' : Result}
    (h₁ : o₁' = mapNext (State.relabelled p f) o₁) (h₂ : o₂' = mapNext (State.relabelled p f) o₂) :
    (if c' then o₁' else o₂') = mapNext (State.relabelled p f) (if c then o₁ else o₂) := by
  rw [apply_ite (mapNext (State.relabelled p f)), if_congr hc h₁ h₂]

theorem withWord_relabelled {k k' : Word16 → Result} (h : ∀ w, k' w = mapNext (State.relabelled p f) (k w)) :
    withWord (s.relabelled p f) k' = mapNext (State.relabelled p f) (withWord s k) := by
  cases hv : wordOperand s.op.val with
  | none => rw [withWord_of_none hv, withWord_of_none (s := s.relabelled p f) hv, raise_relabelled]
  | some w => rw [withWord_of_some hv, withWord_of_some (s := s.relabelled p f) hv, h]

theorem withData11_relabelled {k k' : Data11 → Result} (h : ∀ d, k' d = mapNext (State.relabelled p f) (k d)) :
    withData11 (s.relabelled p f) k' = mapNext (State.relabelled p f) (withData11 s k) := by
  cases hv : dataOperand s.op.val with
  | none => rw [withData11_of_none hv, withData11_of_none (s := s.relabelled p f) hv, raise_relabelled]
  | some d => rw [withData11_of_some hv, withData11_of_some (s := s.relabelled p f) hv, h]

theorem withBuffer_relabelled {k k' : Buffer → Result} (h : ∀ b, k' b = mapNext (State.relabelled p f) (k b)) :
    withBuffer (s.relabelled p f) k' = mapNext (State.relabelled p f) (withBuffer s k) :=
  ite_relabelled Iff.rfl (raise_relabelled _) (h s.op.data)

theorem answerBlocks_relabelled (out : Option Buffer) :
    answerBlocks (s.relabelled p f) out = mapNext (State.relabelled p f) (answerBlocks s out) := by
  cases out with
  | none => exact raise_relabelled _
  | some b => exact answer_relabelled _

theorem execBuild_relabelled (ptype : Byte) :
    execBuild ptype (s.relabelled p f) = mapNext (State.relabelled p f) (execBuild ptype s) :=
  withBuffer_relabelled fun b => by
    cases PacketType.ofByte ptype with
    | none => exact raise_relabelled _
    | some t => exact answer_relabelled _

/-- 44_socket.md R202: `SEND` stores the address it is given and transmits to it. -/
theorem execSend_relabelled : execSend (s.relabelled p f) = mapNext (State.relabelled p f) (execSend s) :=
  ite_relabelled Iff.rfl (raise_relabelled _) (withBuffer_relabelled fun b =>
    let raw := buildRaw Config.digest .data b s.st.cfgMode
    complete_relabelled (s.st.countTx.arm raw s.op.addr) {} [.tx raw s.op.addr])

theorem readRegister_renamed (st : St) (reg : Nat) : readRegister (st.renamed f) reg = readRegister st reg := rfl

/-- 45_registers.md R251: no register holds an address. -/
theorem writeRegister_renamed (st : St) (reg : Nat) (v : Word32) :
    writeRegister (st.renamed f) reg v = (writeRegister st reg v).map (St.renamed f) := by
  unfold writeRegister
  split
  · unfold writeCtrl
    simp only [apply_ite (Except.map (St.renamed f))]
    rfl
  · unfold writeTimeout
    simp only [apply_ite (Except.map (St.renamed f))]
    rfl
  · rfl
  · rfl

theorem execRdreg_relabelled (reg : Nat) :
    execRdreg reg (s.relabelled p f) = mapNext (State.relabelled p f) (execRdreg reg s) := by
  rw [execRdreg, execRdreg, State.relabelled_st, readRegister_renamed]
  cases readRegister s.st reg with
  | none => exact raise_relabelled _
  | some v => exact answer_relabelled _

theorem execWrreg_relabelled (reg : Nat) :
    execWrreg reg (s.relabelled p f) = mapNext (State.relabelled p f) (execWrreg reg s) := by
  have hval : (s.relabelled p f).op.val = s.op.val := rfl
  rw [execWrreg, execWrreg, State.relabelled_st, writeRegister_renamed, hval]
  cases writeRegister s.st reg s.op.val with
  | error x => exact raise_relabelled _
  | ok st => exact complete_relabelled st {} []

/-- 44_socket.md R206: an Acknowledgement ends the send whoever it is from. -/
theorem acceptAck_relabelled (r : Resp) :
    acceptAck (s.relabelled p f) r = mapNext (State.relabelled p f) (acceptAck s r) :=
  ite_relabelled Iff.rfl (complete_relabelled { s.st.disarm with fsm := .idle } r []) (answer_relabelled r)

/-- 44_socket.md R207: a Data packet is delivered with its sender's address and acknowledged to it. -/
theorem acceptData_relabelled (r : Resp) (msg : Buffer) :
    acceptData (s.relabelled p f) r msg = mapNext (State.relabelled p f) (acceptData s r msg) :=
  complete_relabelled s.st.countDeliver.countTx r
    [.deliver msg s.op.addr, .tx (buildRaw Config.digest .ack [] s.st.cfgMode) s.op.addr]

theorem acceptParsed_relabelled (r : Parsed) :
    acceptParsed (s.relabelled p f) r = mapNext (State.relabelled p f) (acceptParsed s r) := by
  refine ite_relabelled Iff.rfl ?_ (dropDatagram_relabelled _ _)
  cases PacketType.ofByte r.ptype with
  | none => exact dropDatagram_relabelled _ _
  | some t =>
    cases t with
    | ack => exact acceptAck_relabelled _
    | data => exact acceptData_relabelled _ _

theorem execRx_relabelled : execRx (s.relabelled p f) = mapNext (State.relabelled p f) (execRx s) :=
  ite_relabelled Iff.rfl (answer_relabelled _)
    (ite_relabelled Iff.rfl (dropDatagram_relabelled _ _) (acceptParsed_relabelled _))

/-- 44_socket.md R208: a retransmission goes to the stored address. -/
theorem retransmit_relabelled : retransmit (s.relabelled p f) = mapNext (State.relabelled p f) (retransmit s) := by
  rw [retransmit, retransmit, State.relabelled_st, show (s.st.renamed f).pending = s.st.pending from rfl,
    show (s.st.renamed f).target = s.st.target.map f from rfl]
  cases s.st.pending with
  | none => rfl
  | some bytes =>
    cases s.st.target with
    | none => rfl
    | some addr =>
      exact complete_relabelled { s.st.countTx.countRetx with timerCount := s.st.sessInterval } {} [.tx bytes addr]

theorem execTick_relabelled : execTick (s.relabelled p f) = mapNext (State.relabelled p f) (execTick s) :=
  ite_relabelled Iff.rfl (answer_relabelled _) <| ite_relabelled Iff.rfl (answer_relabelled _) <|
    ite_relabelled Iff.rfl rfl <| ite_relabelled Iff.rfl retransmit_relabelled <|
      complete_relabelled { s.st with timerCount := s.st.timerCount - 1#32 } {} []

/-- Every operation of 30_encoding.md R93 does the same on the relabelled machine. -/
theorem exec_relabelled (i : Instr) (s : State) :
    exec i (s.relabelled p f) = mapNext (State.relabelled p f) (exec i s) := by
  cases i with
  | parity | chk | decw => exact withWord_relabelled fun _ => answer_relabelled _
  | encw => exact withData11_relabelled fun _ => answer_relabelled _
  | encode | decode | parse => exact withBuffer_relabelled fun _ => answer_relabelled _
  | interleave | deinterleave => exact withBuffer_relabelled fun _ => answerBlocks_relabelled _
  | build ptype => exact execBuild_relabelled ptype
  | send => exact execSend_relabelled
  | close => exact ite_relabelled Iff.rfl (answer_relabelled _) (complete_relabelled s.st.shut {} [.tClose])
  | bind => exact ite_relabelled Iff.rfl (raise_relabelled _) (complete_relabelled s.st {} [.tBind s.op.addr])
  | rdreg reg => exact execRdreg_relabelled reg
  | wrreg reg => exact execWrreg_relabelled reg
  | rx => exact execRx_relabelled
  | tick => exact execTick_relabelled
  | txerr =>
    exact ite_relabelled Iff.rfl (answer_relabelled _)
      (complete_relabelled s.st.shut { status := .transportError } [.tClose, .error .transportError s.op.val])
  | listening => exact ite_relabelled Iff.rfl (answer_relabelled _) (complete_relabelled s.st {} [.listeningOut])

/-- The four kinds of step each take the relabelled item as they take the item itself. -/
theorem step_relabelled (s : State) : step (s.relabelled p f) = mapNext (State.relabelled p f) (step s) := by
  obtain ⟨hin, e⟩ | ⟨rest, hin, e⟩ | ⟨port, op, rest, hin, hd, e⟩ | ⟨port, op, rest, i, hin, hd, e⟩ := step_cases s <;>
    rw [e] <;> have hin' := State.relabelled_inputs.trans (congrArg (List.map (Input.relabelled p f)) hin)
  · exact step_eq_self hin'
  · exact step_eq_takeReset (s := s.relabelled p f) hin'
  · rw [step_eq_afterRaise_of_illegal (s := s.relabelled p f) hin' hd, ← raise_eq (by decide), ← raise_eq (by decide)]
    exact raise_relabelled (s := s.accept op rest) _
  · exact (step_eq_exec (s := s.relabelled p f) hin' hd).trans (exec_relabelled i (s.accept op rest))

/-- Relabelling commutes with a run of any length, stops included. -/
theorem run_relabelled (n : Nat) (s : State) :
    run n (s.relabelled p f) = mapNext (State.relabelled p f) (run n s) := by
  induction n generalizing s with
  | zero => rfl
  | succ n ih =>
    rw [run_succ_eq, run_succ_eq, step_relabelled]
    cases step s with
    | next t => exact ih t
    | fault r => rfl
    | refused r => rfl

theorem State.relabelled_id_left (f : Addr → Addr) : State.relabelled id f = State.renamed f := by
  have hitem : Input.relabelled id f = Input.renamed f := funext fun x => by cases x <;> rfl
  funext s
  rw [State.relabelled, hitem]
  rfl

theorem State.relabelled_id_right (p : Port → Port) : State.relabelled p id = State.onPorts p := by
  have hitem : Input.relabelled p id = Input.onPort p := funext fun x => by cases x <;> rfl
  have hevent : Event.renamed id = id := funext fun e => by cases e <;> rfl
  funext s
  rw [State.relabelled, State.renamed, hitem, hevent]
  simp only [List.map_id, Option.map_id, id_eq]
  rfl

end Relabelling

/-- Settles O56: moving ports is a relabelling that renames nothing. -/
theorem behaviourNeverDependsOnThePort : Obligations.BehaviourNeverDependsOnThePort :=
  fun p n s => State.relabelled_id_right p ▸ run_relabelled n s

/-- Settles O57: renaming addresses is a relabelling that moves nothing. -/
theorem addressesAreCarriedUnchanged : Obligations.AddressesAreCarriedUnchanged :=
  fun f n s => State.relabelled_id_left f ▸ run_relabelled n s

end Sys2Proof.Machine

/-!
TICK, and runs that use it: what one TICK does (44_socket.md R208), whole intervals of them (R213), the race of the last
one with an Acknowledgement (70_reset_and_hazards.md R316), and a complete exchange between two instances
(95_test_vectors.md S7, S8).
-/

namespace Sys2Proof.Machine

open Sys2Proof

section Tick

variable {s : State}

/-- 44_socket.md R208: `TICK` with no timer to count. -/
theorem exec_tick_of_no_timer (h : s.st.fsm = .closed ∨ s.st.timerActive = false) :
    exec .tick s = .next (s.after s.st {} []) := by
  have hquiet : exec .tick s = answer s {} := by
    rw [exec, execTick]
    obtain h | h := h
    · rw [if_pos h]
    · rw [h, if_pos (Bool.not_false), ite_self]
  rw [hquiet]
  exact answer_eq_after_of_ok rfl

/-- 44_socket.md R208: `TICK` before the last time unit of an interval. -/
theorem exec_tick_of_two_le (hopen : s.st.fsm ≠ .closed) (hactive : s.st.timerActive = true)
    (hcount : 2 ≤ s.st.timerCount.toNat) :
    exec .tick s = .next (s.after { s.st with timerCount := s.st.timerCount - 1#32 } {} []) := by
  have h0 : s.st.timerCount ≠ 0#32 := fun h => by simp [h] at hcount
  have h1 : s.st.timerCount ≠ 1#32 := fun h => by simp [h] at hcount
  rw [exec, execTick, if_neg hopen, hactive, if_neg (by decide), if_neg h0, if_neg h1]
  exact complete_eq_after_of_ok rfl

/-- 44_socket.md R208: `TICK` at the last time unit of an interval. -/
theorem exec_tick_of_expiry (hopen : s.st.fsm ≠ .closed) (hactive : s.st.timerActive = true)
    (hcount : s.st.timerCount = 1#32) {bytes : Buffer} {addr : Addr} (hp : s.st.pending = some bytes)
    (ht : s.st.target = some addr) :
    exec .tick s = .next (s.after { s.st.countTx.countRetx with timerCount := s.st.sessInterval } {}
      [.tx bytes addr]) := by
  rw [exec, execTick, if_neg hopen, hactive, if_neg (by decide), hcount, if_neg (by decide), if_pos rfl, retransmit, hp,
    ht]
  exact complete_eq_after_of_ok rfl

end Tick

/-- Settles O34: without a timer, within an interval, and at its end. -/
theorem tickCountsDownAndRetransmits : Obligations.TickCountsDownAndRetransmits :=
  ⟨soleWord_of_mem_fixedOpcodes (by decide) (by decide), fun _ =>
    ⟨exec_tick_of_no_timer, exec_tick_of_two_le,
      fun hopen hactive hcount _ _ => exec_tick_of_expiry hopen hactive hcount⟩⟩

section TickRuns

variable {s : State} {rest : List Input}

/-- One TICK operation on the timebase port (30_encoding.md R93). -/
def tickInput : Input := .op .timebase { w := 0x2100#16 }

theorem tickInputs_eq_replicate (n : Nat) : tickInputs n = List.replicate n tickInput := by
  have hops : [Asm.ticks n].flatMap Asm.ops = List.replicate n { w := Sys2Proof.encode .tick } := List.append_nil _
  rw [tickInputs, assemble, hops, List.map_replicate]
  rfl

/-- 30_encoding.md R98: a TICK that is next runs on the state that has accepted it. -/
theorem step_of_tickInput (h : s.inputs = tickInput :: rest) :
    step s = exec .tick (s.accept { w := 0x2100#16 } rest) := step_eq_exec h (by decide)

theorem run_one (s : State) : run 1 s = step s := by
  rw [run_succ_eq]
  cases step s <;> rfl

theorem run_add (m n : Nat) (s : State) : run (m + n) s = andThen (run m s) (run n) := by
  induction m generalizing s with
  | zero => rw [Nat.zero_add, run_zero, andThen_next]
  | succ m ih =>
    rw [Nat.add_right_comm, run_succ_eq, run_succ_eq]
    cases step s with
    | next t => exact ih t
    | fault r => rfl
    | refused r => rfl

/-- 44_socket.md R208: a TICK presented before the last time unit of an interval. -/
theorem step_countDown (hopen : s.st.fsm ≠ .closed) (hactive : s.st.timerActive = true)
    (hcount : 2 ≤ s.st.timerCount.toNat) (hin : s.inputs = tickInput :: rest) :
    ∃ t, step s = .next t ∧ t.wire = s.wire ∧ t.inputs = rest ∧
      t.st = { s.st with timerCount := s.st.timerCount - 1#32 } :=
  ⟨_, (step_of_tickInput hin).trans (exec_tick_of_two_le hopen hactive hcount), List.append_nil _, rfl, rfl⟩

/-- 44_socket.md R208: a TICK presented at the last time unit of an interval. -/
theorem step_expiry {bytes : Buffer} {addr : Addr} (hopen : s.st.fsm ≠ .closed) (hactive : s.st.timerActive = true)
    (hcount : s.st.timerCount = 1#32) (hp : s.st.pending = some bytes) (ht : s.st.target = some addr)
    (hin : s.inputs = tickInput :: rest) :
    ∃ t, step s = .next t ∧ t.wire = s.wire ++ [.tx bytes addr] ∧ t.inputs = rest ∧ t.maxBufLen = s.maxBufLen ∧
      t.st = { s.st.countTx.countRetx with timerCount := s.st.sessInterval } :=
  ⟨_, (step_of_tickInput hin).trans (exec_tick_of_expiry (s := s.accept _ rest) hopen hactive hcount hp ht),
    rfl, rfl, rfl, rfl⟩

/-- 44_socket.md R208: a TICK presented with no timer to count. -/
theorem step_tick_of_no_timer (hactive : s.st.timerActive = false) (hin : s.inputs = tickInput :: rest) :
    ∃ t, step s = .next t ∧ t.wire = s.wire ∧ t.inputs = rest ∧ t.st = s.st :=
  ⟨_, (step_of_tickInput hin).trans (exec_tick_of_no_timer (.inr hactive)), List.append_nil _, rfl, rfl⟩

/-- 44_socket.md R208: fewer ticks than the count are counted down and do nothing else. -/
theorem run_countDown (m : Nat) (hopen : s.st.fsm ≠ .closed) (hactive : s.st.timerActive = true)
    (hm : m < s.st.timerCount.toNat) (hin : s.inputs = List.replicate m tickInput ++ rest) :
    ∃ t, run m s = .next t ∧ t.wire = s.wire ∧ t.inputs = rest ∧
      t.st = { s.st with timerCount := s.st.timerCount - BitVec.ofNat 32 m } := by
  induction m generalizing s with
  | zero => exact ⟨s, run_zero s, rfl, hin, by rw [BitVec.sub_zero]⟩
  | succ m ih =>
    obtain ⟨u, hstep, huwire, huin, hust⟩ := step_countDown hopen hactive (by omega) hin
    have hcount : m < u.st.timerCount.toNat := by
      rw [hust]
      bv_omega
    obtain ⟨t, hrun, hwire, hrest, hst⟩ := ih (by rwa [hust]) (by rwa [hust]) hcount huin
    have hsum : s.st.timerCount - 1#32 - BitVec.ofNat 32 m = s.st.timerCount - BitVec.ofNat 32 (m + 1) := by bv_omega
    exact ⟨t, (run_succ hstep).trans hrun, hwire.trans huwire, hrest, by rw [hst, hust, hsum]⟩

/-- What an interval of ticks finds and leaves: a session outside `Closed` with the packet `bytes` for `addr` stored and
the timer armed with a whole interval of `n` time units to go (44_socket.md R213). -/
structure St.AtIntervalStart (st : St) (n : Nat) (bytes : Buffer) (addr : Addr) : Prop where
  isOpen : st.fsm ≠ .closed
  active : st.timerActive = true
  pending : st.pending = some bytes
  target : st.target = some addr
  count : st.timerCount.toNat = n
  interval : st.sessInterval.toNat = n

variable {n : Nat} {bytes : Buffer} {addr : Addr}

/-- 44_socket.md R208: the ticks of an interval but its last leave a count of 1. -/
theorem run_to_last_tick (h : s.st.AtIntervalStart (n + 1) bytes addr)
    (hin : s.inputs = List.replicate n tickInput ++ rest) :
    ∃ t, run n s = .next t ∧ t.wire = s.wire ∧ t.inputs = rest ∧ t.st = { s.st with timerCount := 1#32 } := by
  have hcount := h.count
  obtain ⟨t, hrun, hwire, hrest, hst⟩ := run_countDown n h.isOpen h.active (by omega) hin
  have hone : s.st.timerCount - BitVec.ofNat 32 n = 1#32 := by bv_omega
  exact ⟨t, hrun, hwire, hrest, by rw [hst, hone]⟩

/-- 44_socket.md R213: a whole interval of ticks retransmits once, and the next interval starts. -/
theorem run_interval (h : s.st.AtIntervalStart (n + 1) bytes addr)
    (hin : s.inputs = List.replicate (n + 1) tickInput ++ rest) :
    ∃ t, run (n + 1) s = .next t ∧ t.wire = s.wire ++ [.tx bytes addr] ∧ t.inputs = rest ∧
      t.st = s.st.countTx.countRetx := by
  rw [List.replicate_succ', List.append_assoc] at hin
  obtain ⟨u, hrun, huwire, huin, hust⟩ := run_to_last_tick h hin
  obtain ⟨t, hstep, hwire, hrest, -, hst⟩ := step_expiry (bytes := bytes) (addr := addr) (by rw [hust]; exact h.isOpen)
    (by rw [hust]; exact h.active) (by rw [hust]) (by rw [hust]; exact h.pending) (by rw [hust]; exact h.target) huin
  have hreload : s.st.sessInterval = s.st.timerCount := BitVec.eq_of_toNat_eq (h.interval.trans h.count.symm)
  refine ⟨t, ?_, by rw [hwire, huwire], hrest, ?_⟩
  · rw [run_add, hrun, andThen_next, run_one, hstep]
  · rw [hst, hust]
    simp only [St.countTx, St.countRetx, hreload]

/-- The counters after `k` retransmissions (10_state.md R42). -/
def St.countRetransmissions (st : St) (k : Nat) : St :=
  { st with cntTx := st.cntTx + BitVec.ofNat 32 k, cntRetx := st.cntRetx + BitVec.ofNat 32 k }

theorem St.countRetransmissions_zero (st : St) : st.countRetransmissions 0 = st := by
  simp [St.countRetransmissions]

theorem St.countRetransmissions_succ (st : St) (k : Nat) :
    st.countTx.countRetx.countRetransmissions k = st.countRetransmissions (k + 1) := by
  have hsum (v : Word32) : v + 1#32 + BitVec.ofNat 32 k = v + BitVec.ofNat 32 (k + 1) := by bv_omega
  simp only [St.countRetransmissions, St.countTx, St.countRetx, hsum]

/-- 44_socket.md R213: `k` intervals of ticks retransmit `k` times. -/
theorem run_intervals (k : Nat) (h : s.st.AtIntervalStart (n + 1) bytes addr)
    (hin : s.inputs = List.replicate (k * (n + 1)) tickInput ++ rest) :
    ∃ t, run (k * (n + 1)) s = .next t ∧ t.wire = s.wire ++ List.replicate k (.tx bytes addr) ∧ t.inputs = rest ∧
      t.st = s.st.countRetransmissions k := by
  induction k generalizing s with
  | zero =>
    rw [Nat.zero_mul] at hin ⊢
    exact ⟨s, run_zero s, (List.append_nil _).symm, hin, s.st.countRetransmissions_zero.symm⟩
  | succ k ih =>
    rw [Nat.succ_mul, Nat.add_comm] at hin ⊢
    rw [List.replicate_add, List.append_assoc] at hin
    obtain ⟨u, hrun, huwire, huin, hust⟩ := run_interval h hin
    have hu : u.st.AtIntervalStart (n + 1) bytes addr := by
      rw [hust]
      exact ⟨h.isOpen, h.active, h.pending, h.target, h.count, h.interval⟩
    obtain ⟨t, hrun', hwire, hrest, hst⟩ := ih hu huin
    refine ⟨t, ?_, ?_, hrest, ?_⟩
    · rw [run_add, hrun, andThen_next, hrun']
    · rw [hwire, huwire, List.append_assoc, List.replicate_succ]
      rfl
    · rw [hst, hust, St.countRetransmissions_succ]

end TickRuns

/-- Settles O58: by induction on the number of intervals, each of which ends where the next one starts. -/
theorem retransmissionsRecurWithNoCap : Obligations.RetransmissionsRecurWithNoCap := by
  intro n k s bytes addr rest hopen hactive hpending htarget hn hcount hinterval
  obtain ⟨n, rfl⟩ := Nat.exists_eq_add_of_le' hn
  have hstart : s.st.AtIntervalStart (n + 1) bytes addr := ⟨hopen, hactive, hpending, htarget, hcount, hinterval⟩
  rw [tickInputs_eq_replicate, tickInputs_eq_replicate, Nat.add_sub_cancel]
  exact ⟨run_intervals k hstart, run_to_last_tick hstart⟩

section Exchange

variable {s : State} {rest : List Input}

/-- 44_socket.md R206: an Acknowledgement of the current mode ends the outstanding send. -/
theorem exec_rx_ack_of_awaitingAck (hawait : s.st.fsm = .awaitingAck)
    (hdata : s.op.data = buildRaw Config.digest .ack [] s.st.cfgMode) (hfits : s.fits) :
    exec .rx s = .next (s.after { s.st.disarm with fsm := .idle } (Parsed.ofPacket 2#8 []).flags []) :=
  (rxAcknowledgementEndsTheOutstandingSend s [] hdata hfits).1 hawait

/-- 44_socket.md R207: a Data packet of the current mode is delivered and acknowledged. -/
theorem exec_rx_data {msg : Buffer} (hopen : s.st.fsm ≠ .closed)
    (hdata : s.op.data = buildRaw Config.digest .data msg s.st.cfgMode) (hfits : s.fits) :
    exec .rx s = .next (s.after s.st.countDeliver.countTx (Parsed.ofPacket 1#8 msg).flags
      [.deliver msg s.op.addr, .tx (buildRaw Config.digest .ack [] s.st.cfgMode) s.op.addr]) :=
  rxDataDeliversThenAcknowledges s msg hopen hdata hfits

/-- The datagram of an Acknowledgement of a mode, as presented on the transport port (30_encoding.md R93). -/
def ackInput (mode : Bool) (sender : Addr) : Input :=
  .op .transport { w := 0x2000#16, data := buildRaw Config.digest .ack [] mode, addr := sender }

/-- 44_socket.md R206: an Acknowledgement of the current mode, presented while one is awaited. -/
theorem step_ackInput {sender : Addr} (hawait : s.st.fsm = .awaitingAck)
    (hlen : ∀ m ∈ s.maxBufLen, (buildRaw Config.digest .ack [] s.st.cfgMode).length ≤ m)
    (hin : s.inputs = ackInput s.st.cfgMode sender :: rest) :
    ∃ t, step s = .next t ∧ t.wire = s.wire ∧ t.inputs = rest ∧ t.st = { s.st.disarm with fsm := .idle } :=
  have hword : decode 0x2000#16 = some .rx := by decide
  ⟨_, (step_eq_exec hin hword).trans (exec_rx_ack_of_awaitingAck hawait rfl hlen), List.append_nil _, rfl, rfl⟩

end Exchange

/-- Settles O59: the Acknowledgement leaves the TICK no timer, and the TICK leaves the Acknowledgement its send. -/
theorem acknowledgementAndTickRace : Obligations.AcknowledgementAndTickRace := by
  rintro s bytes addr sender rest ack tick hawait hactive hcount hpending htarget hlen rfl rfl
  refine ⟨fun hin => ?_, fun hin => ?_⟩
  · obtain ⟨u, hack, huwire, huin, hust⟩ := step_ackInput hawait hlen hin
    obtain ⟨t, htick, hwire, -, hst⟩ := step_tick_of_no_timer (by rw [hust]; rfl) huin
    refine ⟨t, (run_succ hack).trans ((run_one u).trans htick), ?_⟩
    rw [hst, hust, hwire, huwire]
    exact ⟨rfl, rfl, rfl, rfl⟩
  · obtain ⟨u, htick, huwire, huin, hulen, hust⟩ :=
      step_expiry (by rw [hawait]; decide) hactive hcount hpending htarget hin
    obtain ⟨t, hack, hwire, -, hst⟩ := step_ackInput (s := u) (sender := sender) (rest := rest)
      (by rw [hust]; exact hawait) (by rw [hust, hulen]; exact hlen) (by rw [hust]; exact huin)
    refine ⟨t, (run_succ htick).trans ((run_one u).trans hack), ?_⟩
    rw [hst, hust, hwire, huwire]
    exact ⟨rfl, rfl, rfl, rfl⟩

/-- Settles O60: the packet and its Acknowledgement are those of the shared mode, and the duplicate finds the receiver
as the first datagram did. -/
theorem sendDeliverAcknowledgeCompletes : Obligations.SendDeliverAcknowledgeCompletes := by
  intro a b fromA fromB hidle hopen hmode hfits hpacket hack
  have hdeliver := exec_rx_data
    (s := { b with op := { b.op with data := buildRaw Config.digest .data a.op.data a.st.cfgMode, addr := fromA } })
    (msg := a.op.data) hopen (by rw [hmode]) hpacket
  refine ⟨_, buildRaw Config.digest .ack [] a.st.cfgMode, _, _, _, _, _, exec_send_of_idle hidle hfits, rfl, rfl,
    hdeliver, by rw [hmode]; rfl, exec_rx_data hopen (by rw [hmode]; rfl) hpacket, by rw [hmode]; rfl,
    exec_rx_ack_of_awaitingAck rfl rfl hack, rfl, rfl, rfl, rfl, exec_tick_of_no_timer (.inr rfl), rfl, rfl⟩

end Sys2Proof.Machine
